-- ==== Sys2Proof/Word.lean ====
section
/-! DEFINITION. The words of the hardware and the plain types of its values (spec/00_scope.md R9, R11). -/

namespace Sys2Proof

/-- R11 `Byte`: 8 bits unsigned.  A `Channel` and a `PulseByte` are Bytes too. -/
abbrev Byte := BitVec 8

/-- R11, R50 `Color`: 24 bits, three channels. -/
abbrev Color := BitVec 24

/-- R55: a command is one 64-bit word. -/
abbrev CmdWord := BitVec 64

/-- R63: a response is one 32-bit word. -/
abbrev RspWord := BitVec 32

/-- R11 `Order`: the two channel orders on the wire, GRB (code 0) and RGB (code 1), R8, R19. -/
inductive Order where
  | grb
  | rgb
deriving DecidableEq, Repr

/-- R11 `FreqClass`: the two frequency classes, K800 (code 0) and K400 (code 1), R8, R20. -/
inductive FreqClass where
  | k800
  | k400
deriving DecidableEq, Repr

/-- R11 `Triple`: an ordered (r, g, b) of three Channels. -/
structure Triple where
  r : Byte
  g : Byte
  b : Byte
deriving DecidableEq, Repr

end Sys2Proof
end

