-- ==== Sys2Proof/Syntax.lean ====
section
/-! DEFINITION. The instructions: the nine host commands of spec/30_encoding.md R56, one constructor per row of
spec/opcode_table.json.  The six datapath functions have no operation code (R69) and are no instructions here: they are
functions that the meanings call.  CONSTRUCT is reset (R96), not a command word. -/

namespace Sys2Proof

/-- R56.  Operands are the assembled ones of R62: signed integers for index, channels and brightness, a Color for the
24-bit field of SET_PIXEL. -/
inductive Instr where
  /-- 0x01 SET_PIXEL index, color (format IC, R59; R97). -/
  | setPixel (index : Int) (color : Color)
  /-- 0x02 SET_PIXEL_RGB index, r, g, b (format IT, R60; R98). -/
  | setPixelRgb (index : Int) (r : Int) (g : Int) (b : Int)
  /-- 0x03 GET_PIXEL index (format I, R58; R99). -/
  | getPixel (index : Int)
  /-- 0x04 GET_PIXEL_COLOR index (format I, R58; R100). -/
  | getPixelColor (index : Int)
  /-- 0x05 GET_PIXELS (format N, R57; R101). -/
  | getPixels
  /-- 0x06 COUNT (format N, R57; R102). -/
  | count
  /-- 0x07 SET_BRIGHTNESS brt (format B, R61; R103). -/
  | setBrightness (brt : Int)
  /-- 0x08 SHOW (format N, R57; R104). -/
  | showFrame
  /-- 0x09 CLOSE (format N, R57; R112). -/
  | close
deriving DecidableEq, Repr

end Sys2Proof
end

