-- ==== Sys2Proof/WellFormed.lean ====
section
/-! DEFINITION. Which instructions a command word can carry: every signed operand lies in the range of its field
(spec/30_encoding.md R58 to R62). -/

namespace Sys2Proof

/-- `v` can be written in a two's-complement field of `bits` bits (R9 `sext_W`). -/
def fitsSigned (bits : Nat) (v : Int) : Bool :=
  -(2 ^ (bits - 1) : Int) ≤ v && v < (2 ^ (bits - 1) : Int)

/-- R58 to R62: the index field is 16 bits signed, each channel field 12 bits signed, the brightness field 16 bits
signed; the colour field of SET_PIXEL holds every Color.  No legality beyond that: an index that names no pixel or a
channel above 255 is a well-formed operand which the command answers with an error. -/
def Instr.wf : Instr → Bool
  | .setPixel index _ => fitsSigned 16 index
  | .setPixelRgb index r g b => fitsSigned 16 index && fitsSigned 12 r && fitsSigned 12 g && fitsSigned 12 b
  | .getPixel index => fitsSigned 16 index
  | .getPixelColor index => fitsSigned 16 index
  | .getPixels => true
  | .count => true
  | .setBrightness brt => fitsSigned 16 brt
  | .showFrame => true
  | .close => true

end Sys2Proof
end

