-- ==== Sys2Proof/Decode.lean ====
section
/-! DEFINITION. The decoder, total on all 2^64 command words and rejecting by name (spec/30_encoding.md R55 to R62, R65,
R66), and after it the encoder, written from the same formats. -/

namespace Sys2Proof

/-- R65: why a command word is illegal. -/
inductive Illegal where
  /-- R65 (a): `op` is not one of 0x01..0x09. -/
  | reservedOp
  /-- R65 (b): a field the format marks MBZ is not zero. -/
  | nonzeroMbz
deriving DecidableEq, Repr

/-- The five formats of R57 to R61. -/
inductive Format where
  | n | i | ic | it | b
deriving DecidableEq, Repr

/-- The nine assigned operation codes of R56. -/
inductive Opcode where
  | setPixel | setPixelRgb | getPixel | getPixelColor | getPixels | count | setBrightness | showFrame | close
deriving DecidableEq, Repr

/-- R55: `op` = W[63:56]. -/
def opField (w : CmdWord) : BitVec 8 := w.extractLsb' 56 8
/-- R55: `idx` = W[55:40]. -/
def idxField (w : CmdWord) : BitVec 16 := w.extractLsb' 40 16
/-- R55: `pay` = W[39:0]. -/
def payField (w : CmdWord) : BitVec 40 := w.extractLsb' 0 40
/-- R59: `color` = pay[23:0]. -/
def colorField (w : CmdWord) : BitVec 24 := w.extractLsb' 0 24
/-- R59: the MBZ field pay[39:24] of format IC. -/
def icMbzField (w : CmdWord) : BitVec 16 := w.extractLsb' 24 16
/-- R60: the MBZ field pay[39:36] of format IT. -/
def itMbzField (w : CmdWord) : BitVec 4 := w.extractLsb' 36 4
/-- R60: `r` = pay[35:24]. -/
def redField (w : CmdWord) : BitVec 12 := w.extractLsb' 24 12
/-- R60: `g` = pay[23:12]. -/
def greenField (w : CmdWord) : BitVec 12 := w.extractLsb' 12 12
/-- R60: `b` = pay[11:0]. -/
def blueField (w : CmdWord) : BitVec 12 := w.extractLsb' 0 12
/-- R61: the MBZ field pay[39:16] of format B. -/
def bMbzField (w : CmdWord) : BitVec 24 := w.extractLsb' 16 24
/-- R61: `brt` = pay[15:0]. -/
def brtField (w : CmdWord) : BitVec 16 := w.extractLsb' 0 16

/-- R56: the operation map, read from the code; every other value is reserved. -/
def opcodeOf (op : BitVec 8) : Option Opcode :=
  match op.toNat with
  | 0x01 => some .setPixel
  | 0x02 => some .setPixelRgb
  | 0x03 => some .getPixel
  | 0x04 => some .getPixelColor
  | 0x05 => some .getPixels
  | 0x06 => some .count
  | 0x07 => some .setBrightness
  | 0x08 => some .showFrame
  | 0x09 => some .close
  | _ => none

/-- R56: the format column of the operation map. -/
def formatOf : Opcode → Format
  | .setPixel => .ic
  | .setPixelRgb => .it
  | .getPixel => .i
  | .getPixelColor => .i
  | .getPixels => .n
  | .count => .n
  | .setBrightness => .b
  | .showFrame => .n
  | .close => .n

/-- R57 to R61: every field the format marks MBZ is zero. -/
def mbzClear (f : Format) (w : CmdWord) : Bool :=
  match f with
  | .n => idxField w == 0 && payField w == 0
  | .i => payField w == 0
  | .ic => icMbzField w == 0
  | .it => itMbzField w == 0
  | .b => idxField w == 0 && bMbzField w == 0

/-- R62: operand assembly; `BitVec.toInt` reads a field as a two's-complement integer (R9 `sext_W`). -/
def assemble (o : Opcode) (w : CmdWord) : Instr :=
  match o with
  | .setPixel => .setPixel (idxField w).toInt (colorField w)
  | .setPixelRgb => .setPixelRgb (idxField w).toInt (redField w).toInt (greenField w).toInt (blueField w).toInt
  | .getPixel => .getPixel (idxField w).toInt
  | .getPixelColor => .getPixelColor (idxField w).toInt
  | .getPixels => .getPixels
  | .count => .count
  | .setBrightness => .setBrightness (brtField w).toInt
  | .showFrame => .showFrame
  | .close => .close

/-- R65: every 64-bit word is exactly one of the nine commands with its operands, or illegal. -/
def decode (w : CmdWord) : Except Illegal Instr :=
  match opcodeOf (opField w) with
  | none => .error .reservedOp
  | some o => if mbzClear (formatOf o) w then .ok (assemble o w) else .error .nonzeroMbz

/-- The instruction the decoder reads from a word of spec/opcode_table.json's numbering.  Every row has 64 bits, and the
command word is a single value that is never split into bytes (R39), so bit k of the row is bit k of the word. -/
def decodeTableWord (nbits w : Nat) : Option Instr :=
  (decode (BitVec.ofNat 64 (w % 2 ^ nbits))).toOption

/-- R56: the code of an operation. -/
def opcodeWord : Opcode → BitVec 8
  | .setPixel => 0x01#8
  | .setPixelRgb => 0x02#8
  | .getPixel => 0x03#8
  | .getPixelColor => 0x04#8
  | .getPixels => 0x05#8
  | .count => 0x06#8
  | .setBrightness => 0x07#8
  | .showFrame => 0x08#8
  | .close => 0x09#8

/-- R55: a command word from its three fields. -/
def commandWord (op : BitVec 8) (idx : BitVec 16) (pay : BitVec 40) : CmdWord := op ++ idx ++ pay

/-- The operation of an instruction. -/
def opcode : Instr → Opcode
  | .setPixel _ _ => .setPixel
  | .setPixelRgb _ _ _ _ => .setPixelRgb
  | .getPixel _ => .getPixel
  | .getPixelColor _ => .getPixelColor
  | .getPixels => .getPixels
  | .count => .count
  | .setBrightness _ => .setBrightness
  | .showFrame => .showFrame
  | .close => .close

/-- R55: the index field an instruction is written with, zero where its format marks it MBZ. -/
def encodeIdx : Instr → BitVec 16
  | .setPixel index _ => BitVec.ofInt 16 index
  | .setPixelRgb index _ _ _ => BitVec.ofInt 16 index
  | .getPixel index => BitVec.ofInt 16 index
  | .getPixelColor index => BitVec.ofInt 16 index
  | .getPixels => 0
  | .count => 0
  | .setBrightness _ => 0
  | .showFrame => 0
  | .close => 0

/-- R57 to R61: the payload an instruction is written with, its MBZ fields zero. -/
def encodePay : Instr → BitVec 40
  | .setPixel _ color => (0 : BitVec 16) ++ color
  | .setPixelRgb _ r g b => (0 : BitVec 4) ++ BitVec.ofInt 12 r ++ BitVec.ofInt 12 g ++ BitVec.ofInt 12 b
  | .getPixel _ => 0
  | .getPixelColor _ => 0
  | .getPixels => 0
  | .count => 0
  | .setBrightness brt => (0 : BitVec 24) ++ BitVec.ofInt 16 brt
  | .showFrame => 0
  | .close => 0

/-- The command word of a well-formed instruction (R55 to R62). -/
def encode (i : Instr) : CmdWord := commandWord (opcodeWord (opcode i)) (encodeIdx i) (encodePay i)

end Sys2Proof
end

