-- ==== Sys2Proof/Config.lean ====
section
/-! DEFINITION. What a build of the hardware fixes (spec/00_scope.md R4 to R8): the spec's own constants, the type of
the parameters the spec leaves open, and the one build that `State.reset` stands for.  No meaning reads that build:
every meaning reads the parameters of the state it is given, so a statement over all states is one over all builds. -/

namespace Sys2Proof

/-- R6 `BRT_FRAC`: the number of fraction bits of the brightness register. -/
abbrev Config.brtFrac : Nat := 8

/-- R7 `GAP_NS`: the minimum inter-frame gap in nanoseconds, the source's 50 microseconds. -/
abbrev Config.gapNs : Nat := 50000

/-- R4: the largest pixel count the spec admits. -/
abbrev Config.maxPixels : Nat := 32767

/-- R8 `ERR_PRIORITY`: which error SET_PIXEL_RGB reports when index and channel are both bad (R130). -/
inductive ErrPriority where
  | indexFirst
  | rangeFirst
deriving DecidableEq, Repr

/-- The parameters of one build other than N: R5 `PULSE_ZERO`, `PULSE_ONE`; R7 `TICK_NS` as the positive rational
`tickNum / tickDen`; R8 `ERR_PRIORITY`.  N is the length of the pixel array (R4, R13). -/
structure Build where
  pulseZero   : Byte
  pulseOne    : Byte
  tickNum     : Nat
  tickDen     : Nat
  errPriority : ErrPriority
deriving DecidableEq, Repr

/-- The builds the spec admits: R5 the two pulse constants differ; R7 `TICK_NS` is a positive rational. -/
def Build.wf (b : Build) : Bool :=
  b.pulseZero != b.pulseOne && 0 < b.tickNum && 0 < b.tickDen

/-- DESIGN CHOICE (log 1), unsafe: the build `State.reset` stands for.  PULSE_ZERO and PULSE_ONE are the example values
of R5; the tick of 10 microseconds gives the GAP_TICKS = 5 of the spec's program P4; ERR_PRIORITY is this hardware's. -/
def Config.build : Build :=
  { pulseZero := 0xE0#8, pulseOne := 0xF8#8, tickNum := 10000, tickDen := 1, errPriority := .indexFirst }

/-- DESIGN CHOICE (log 1), unsafe: the pixel count of the build `State.reset` stands for (N = 3, the spec's vectors). -/
def Config.pixelCount : Nat := 3

/-- DESIGN CHOICE (log 1), unsafe: the level of the strap `order_i` sampled by the reset that `State.reset` stands
for (0 = GRB, R8). -/
def Config.orderStrap : BitVec 1 := 0#1

/-- DESIGN CHOICE (log 1), unsafe: the level of the strap `freq_i` sampled by the reset that `State.reset` stands
for (0 = K800, R8). -/
def Config.freqStrap : BitVec 1 := 0#1

end Sys2Proof
end

