-- ==== Sys2Proof/Machine/Codes.lean ====
section
/-! DEFINITION. The one-bit codes of ORDER and FREQ (spec/00_scope.md R8), as the straps carry them in and T_OPEN's argument
carries FREQ out (spec/10_state.md R19, R20, R30, R31). -/

namespace Sys2Proof.Machine

/-- R8, R19: the order a level of the strap `order_i` stands for. -/
def orderOfCode (code : BitVec 1) : Order := if code = 0#1 then .grb else .rgb

/-- R8, R19: ORDER code 0 = GRB, 1 = RGB. -/
def orderCode : Order → BitVec 1
  | .grb => 0#1
  | .rgb => 1#1

/-- R8, R20: the frequency class a level of the strap `freq_i` stands for. -/
def freqOfCode (code : BitVec 1) : FreqClass := if code = 0#1 then .k800 else .k400

/-- R8, R20: FREQ code 0 = K800, 1 = K400. -/
def freqCode : FreqClass → BitVec 1
  | .k800 => 0#1
  | .k400 => 1#1

end Sys2Proof.Machine
end

