-- ==== Sys2Proof/Machine/Timebase.lean ====
section
/-! DEFINITION. The time base of the gap counter (spec/00_scope.md R7). -/

namespace Sys2Proof

/-- R7: `GAP_TICKS` = ceil(GAP_NS / TICK_NS), with TICK_NS = tickNum / tickDen. -/
def Build.gapTicks (b : Build) : Nat := (Config.gapNs * b.tickDen + (b.tickNum - 1)) / b.tickNum

end Sys2Proof
end

