-- ==== Sys2Proof/Machine/State.lean ====
section
/-! DEFINITION. The state of the core (spec/10_state.md), the state of its two ports, and the environment's side of them
(R12: the host, the clock and the transport) as plain data; the state after reset. -/

namespace Sys2Proof.Machine

/-- R22 `FSM`, the controller state. -/
inductive Fsm where
  | idle
  | gapwait
  | transmit
  | closed
deriving DecidableEq, Repr

/-- R113: one call of a transport primitive, with its argument. -/
inductive Call where
  /-- T_OPEN(f) -/
  | tOpen (f : FreqClass)
  /-- T_BEGIN() -/
  | tBegin
  /-- T_WRITE(bytes) -/
  | tWrite (bytes : List Byte)
  /-- T_END() -/
  | tEnd
  /-- T_CLOSE() -/
  | tClose
deriving DecidableEq, Repr

/-- R113, R30: the transport call that is made and not answered yet (a transfer in progress).  It also says which step
of R104, R96 or R112 the answer ends. -/
inductive Pending where
  /-- T_OPEN of the reset sequence, R144. -/
  | opening
  /-- T_BEGIN, SHOW step (b), R106. -/
  | beginning
  /-- T_WRITE, SHOW step (d), R108. -/
  | writing
  /-- T_END: `good = true` is step (e), R109; `good = false` the T_END after a failed T_WRITE, R111 (ii). -/
  | ending (good : Bool)
  /-- T_CLOSE of CLOSE, R112. -/
  | closing
deriving DecidableEq, Repr

/-- R12 (8): what happens at the transport port: a call, or the transport's answer to a call. -/
inductive TransportEvent where
  | call (c : Call)
  | answer (p : Pending) (ok : Bool)
deriving DecidableEq, Repr

/-- One event at the transport port and the tick at which it happened (R12 (8): "with their arguments and ticks"). -/
structure TraceEntry where
  tick  : Nat
  event : TransportEvent
deriving DecidableEq, Repr

/-- R25, R26: the state that exists only while FSM = TRANSMIT. -/
structure Transmit where
  /-- R26, R34: the TransmitBuffer, in offset order; empty until ENCODE_FRAME has built it. -/
  buf : List Byte
  /-- R25 `SEQ`: how many bytes of the frame have been handed to the transport. -/
  seq : Nat
deriving DecidableEq, Repr

/-- R12 (1): one thing the environment does.  The order and the spacing of these is the environment's and is free. -/
inductive Input where
  /-- R31, R136: one tick of the clock passes. -/
  | tick
  /-- R113: the transport answers the call in progress, ok or fail. -/
  | answer (ok : Bool)
  /-- R30: the transport takes the next byte of the frame of the T_WRITE in progress. -/
  | takeByte
  /-- R29: the host offers a command word. -/
  | word (w : CmdWord)
  /-- R29: the host takes one response word. -/
  | takeResponse
  /-- R142: `rst` is asserted. -/
  | rstAssert
  /-- R142, R31: `rst` is released with these levels on the straps `order_i` and `freq_i` (one bit each, codes R8). -/
  | rstRelease (orderI : BitVec 1) (freqI : BitVec 1)
deriving DecidableEq, Repr

/-- The whole machine.  First the core's registers (R13 to R26), then its ports (R29 to R31), then the environment's
side (R12 (1), the MODEL's own fields), then the build it was made with (R4 to R8). -/
structure State where
  /-- R13: the pixel array; its length is N (R4, R21). -/
  x : List Color
  /-- R17 `BRT`, the brightness numerator over 256, 9 bits. -/
  brt : BitVec 9
  /-- R19 `ORDER`. -/
  order : Order
  /-- R20 `FREQ`. -/
  freq : FreqClass
  /-- R22 `FSM`. -/
  fsm : Fsm
  /-- R23 `GAP_CNT`, the ticks that must still pass before a transaction may begin. -/
  gapCnt : Nat
  /-- R25 `SEQ` and R26 the TransmitBuffer; `none` outside TRANSMIT, where they do not exist (R143). -/
  tx : Option Transmit
  /-- R113, R30: the transport call in progress, if any. -/
  pending : Option Pending
  /-- R29, R63, R64: the response words sent and not yet taken by the host, oldest first. -/
  rsp : List RspWord
  /-- R31, R142: `rst` is asserted. -/
  rst : Bool
  /-- R29, R115: the command words the host has offered and the core has not accepted, oldest first. The queue is the
  host's: the core holds none of them. -/
  offered : List CmdWord
  /-- R12 (1): what the environment does next, oldest first, as far as a run looks at it (log 2). -/
  inputs : List Input
  /-- R138: the tick the clock is at. -/
  now : Nat
  /-- R12 (8): the transport events so far, oldest first. -/
  trace : List TraceEntry
  /-- R12 (8): the response words the host has taken so far, oldest first. -/
  taken : List RspWord
  /-- R4 to R8: the parameters of the build; no step changes them. -/
  build : Build
deriving DecidableEq, Repr

/-- No command stops the core with a fault: the hardware's errors are status codes in response words (R122, R131), which
are next states.  Hence no constructor. -/
inductive Fault : Type where
deriving DecidableEq, Repr

/-- Why a step has no meaning. -/
inductive Refusal where
  /-- Raised only by an arm of `exec` for an instruction without a meaning; safe.  No arm of this model raises it. -/
  | notModelled (mnemonic : String)
deriving DecidableEq, Repr

/-- R96, R143, R144: the core just after `rst` is released at tick 0 with these straps: the reset values are loaded and
T_OPEN(FREQ) is called, its answer still outstanding.  The value CLOSED that FSM holds until that answer is a DESIGN
CHOICE (log 4): no word can be accepted then, so nothing sees it. -/
def State.powerUp (b : Build) (n : Nat) (order : Order) (freq : FreqClass) : State :=
  { x := List.replicate n 0#24, brt := 256#9, order := order, freq := freq, fsm := .closed, gapCnt := b.gapTicks,
    tx := none, pending := some .opening, rsp := [], rst := false, offered := [], inputs := [], now := 0,
    trace := [⟨0, .call (.tOpen freq)⟩], taken := [], build := b }

/-- R96, R143: the core after a reset sequence whose T_OPEN was answered ok in the tick it was called. -/
def State.construct (b : Build) (n : Nat) (order : Order) (freq : FreqClass) : State :=
  { State.powerUp b n order freq with
    fsm := .idle, pending := none,
    trace := [⟨0, .call (.tOpen freq)⟩, ⟨0, .answer .opening true⟩] }

/-- The machine right after reset (R143): `construct` for the build and the straps that Config names (log 1), T_OPEN
answered ok (log 3). -/
def State.reset : State :=
  State.construct Config.build Config.pixelCount (orderOfCode Config.orderStrap) (freqOfCode Config.freqStrap)

end Sys2Proof.Machine
end

