-- ==== Sys2Proof/Machine/Flags.lean ====
section
/-! DEFINITION. The hardware has no flags (spec/10_state.md R27): what a command reports is the status of its response
word.  This file holds the status codes and the response word (spec/30_encoding.md R63, spec/60_exceptions.md R122). -/

namespace Sys2Proof.Machine

/-- R11 `Status`, R122 the error table. -/
inductive Status where
  | ok
  | rangeError
  | indexError
  | transportUnavailable
  | illegalCommand
deriving DecidableEq, Repr

/-- R63: the status codes. -/
def statusCode : Status → BitVec 4
  | .ok => 0
  | .rangeError => 1
  | .indexError => 2
  | .transportUnavailable => 3
  | .illegalCommand => 15

/-- R63: a response word: status in 31:28, zero in 27:24, data in 23:0. -/
def responseWord (st : Status) (data : BitVec 24) : RspWord := statusCode st ++ (0 : BitVec 4) ++ data

/-- R63: `status` = S[31:28] of a response word. -/
def statusField (w : RspWord) : BitVec 4 := w.extractLsb' 28 4

/-- R63: `data` = S[23:0] of a response word. -/
def dataField (w : RspWord) : BitVec 24 := w.extractLsb' 0 24

end Sys2Proof.Machine
end

