-- ==== Sys2Proof/Machine/BitEncoder.lean ====
section
/-! DEFINITION. The BitEncoder: the 8-to-8 pulse lookup table (spec/40_bitencoder.md R70 to R76, spec/20_memory.md R33).
Its contents are constants of the build, not state (R28, R71). -/

namespace Sys2Proof.Machine

/-- R33: the LUT ROM space, byte addresses 0..2047: the byte at 8 v + i is PULSE_ONE if bit (7 - i) of v is 1, else
PULSE_ZERO. -/
def lutByte (b : Build) (addr : Nat) : Byte :=
  if (addr / 8).testBit (7 - addr % 8) then b.pulseOne else b.pulseZero

/-- R10 `MemRead(a, n)`: n bytes of the LUT ROM space from address a, in ascending order. -/
def memRead (b : Build) (addr n : Nat) : List Byte := (List.range n).map fun i => lutByte b (addr + i)

/-- R70 ENCODE_BYTE: the ByteWaveform of v, one LUT read of 8 bytes, first-sent byte first. -/
def encodeByte (b : Build) (v : Byte) : List Byte := memRead b (8 * v.toNat) 8

/-- R73, R52: the output port `enc_out[63:0]` of the BitEncoder sub-block, w[0] in bits 63:56 and w[7] in bits 7:0. -/
def encOut (b : Build) (v : Byte) : BitVec 64 :=
  (encodeByte b v).foldl (fun acc w => (acc <<< 8) ||| w.setWidth 64) 0

end Sys2Proof.Machine
end

