-- ==== Sys2Proof/Machine/ColorModel.lean ====
section
/-! DEFINITION. The ColorModel: PACK, UNPACK and the brightness multiplier SCALE (spec/41_colormodel.md R77 to R86). -/

namespace Sys2Proof.Machine

/-- R123, R85: a channel operand inside [0, 255], a comparison of signed integers. -/
def channelInRange (v : Int) : Bool := 0 ≤ v && v ≤ 255

/-- R50: a Color from its three channels: red 23:16, green 15:8, blue 7:0. -/
def colorOf (t : Triple) : Color := t.r ++ t.g ++ t.b

/-- R77 PACK: a Color, or `none` where PACK raises RangeError; the three channels are checked together. -/
def pack (r g b : Int) : Option Color :=
  if channelInRange r && channelInRange g && channelInRange b then
    some (colorOf ⟨BitVec.ofInt 8 r, BitVec.ofInt 8 g, BitVec.ofInt 8 b⟩)
  else none

/-- R78 UNPACK: (red, green, blue) of a Color; total. -/
def unpack (c : Color) : Triple := ⟨c.extractLsb' 16 8, c.extractLsb' 8 8, c.extractLsb' 0 8⟩

/-- R80, R82, R83: one channel times BRT, the exact product shifted right by BRT_FRAC (truncation, never rounding). -/
def scaleChannel (ch : Byte) (brt : BitVec 9) : Byte :=
  BitVec.ofNat 8 ((ch.toNat * brt.toNat) >>> Config.brtFrac)

/-- R80 SCALE: the three channels scaled independently. -/
def scale (c : Color) (brt : BitVec 9) : Triple :=
  let t := unpack c
  ⟨scaleChannel t.r brt, scaleChannel t.g brt, scaleChannel t.b brt⟩

end Sys2Proof.Machine
end

