-- ==== Sys2Proof/Machine/FrameEncoder.lean ====
section
/-! DEFINITION. The FrameEncoder: the RGB/GRB reorderer and the frame builder (spec/42_frameencoder.md R87 to R94). -/

namespace Sys2Proof.Machine

/-- R88: the slot table of the reorderer; blue is in slot 2 in both orders. -/
def slots (t : Triple) (order : Order) : List Byte :=
  match order with
  | .grb => [t.g, t.r, t.b]
  | .rgb => [t.r, t.g, t.b]

/-- R87 ENCODE_PIXEL: 24 bytes, the three ByteWaveforms in the slot order. -/
def encodePixel (b : Build) (t : Triple) (order : Order) : List Byte := (slots t order).flatMap (encodeByte b)

/-- R89 ENCODE_FRAME: for each pixel in array order, SCALE then ENCODE_PIXEL; the TransmitBuffer space is filled in
ascending offset order (R34), which is appending. -/
def encodeFrame (b : Build) (px : List Color) (order : Order) (brt : BitVec 9) : List Byte :=
  px.flatMap fun c => encodePixel b (scale c brt) order

end Sys2Proof.Machine
end

