-- ==== Sys2Proof/Machine/Ops.lean ====
section
/-! DEFINITION. The operations over the state that the meanings and the step share: registers, the host port, raising an
error, the transport port, the steps of SHOW, the clock, reset, and the acceptance of a command. -/

namespace Sys2Proof.Machine

/-! Registers. -/

/-- R21 `COUNT`: reads as N always, the length of the pixel array. -/
abbrev State.count (s : State) : Nat := s.x.length

/-- R10 `x[i]`, used only for i < N. -/
def State.readPixel (s : State) (i : Nat) : Color := s.x.getD i 0

/-- R10 `x[i] <- v`, used only for i < N: one whole cell (R42). -/
def State.writePixel (s : State) (i : Nat) (v : Color) : State := { s with x := s.x.set i v }

/-- R17: the only write of BRT. -/
def State.writeBrt (s : State) (v : BitVec 9) : State := { s with brt := v }

/-! The host port. -/

/-- R10 `respond(status, data)`, R63: send one response word. -/
def State.respond (s : State) (st : Status) (data : BitVec 24) : State :=
  { s with rsp := s.rsp ++ [responseWord st data] }

/-- R122, R131: TAKING AN EXCEPTION.  `raise E()` is the response respond(code(E), 0) and nothing else: no state is saved,
no mode switched, no control transferred.  There is no return from one (R132): nothing is to be restored. -/
def State.raise (s : State) (e : Status) : State := s.respond e 0

/-- R64: the N response words of GET_PIXELS, one per value, in order. -/
def State.respondAll (s : State) (vs : List Color) : State :=
  { s with rsp := s.rsp ++ vs.map (responseWord .ok) }

/-- R29: the host takes the oldest response word, if there is one. -/
def State.takeResponse (s : State) : State :=
  match s.rsp with
  | [] => s
  | r :: rs => { s with rsp := rs, taken := s.taken ++ [r] }

/-- R29, R115: the host offers a word; until it is accepted it simply waits. -/
def State.offer (s : State) (w : CmdWord) : State := { s with offered := s.offered ++ [w] }

/-- R115, R144: `cmd_ready`: not in reset, FSM is IDLE or CLOSED, no transport call is unanswered (the previous command,
or the reset sequence, is complete), and every response word has been taken. -/
def State.ready (s : State) : Bool :=
  !s.rst && (s.fsm == .idle || s.fsm == .closed) && s.pending == none && s.rsp == []

/-- R115, R114: a legal command.  It has its effect `k` where the core is ready and IDLE; in CLOSED it is answered
TransportUnavailableError, its operands not looked at; where the core is not ready it waits, with no effect. -/
def State.accept (s : State) (k : State → State) : Host.Outcome State Fault Refusal :=
  if s.ready then
    if s.fsm = .closed then .next (s.raise .transportUnavailable) else .next (k s)
  else .next s

/-- R126, R116: an illegal word, accepted in IDLE or in CLOSED. -/
def State.rejectWord (s : State) : State := s.raise .illegalCommand

/-! The transport port. -/

/-- R30 `t_req_kind[2:0]`: the code of a request. -/
def Call.kind : Call → BitVec 3
  | .tOpen _ => 0
  | .tBegin => 1
  | .tWrite _ => 2
  | .tEnd => 3
  | .tClose => 4

/-- R30 `t_req_arg[0]`: the code of FREQ for OPEN, else 0. -/
def Call.arg : Call → BitVec 1
  | .tOpen f => freqCode f
  | .tBegin => 0
  | .tWrite _ => 0
  | .tEnd => 0
  | .tClose => 0

/-- R12 (8): record what happens at the transport port, at the current tick. -/
def State.log (s : State) (e : TransportEvent) : State := { s with trace := s.trace ++ [⟨s.now, e⟩] }

/-- R113: call a transport primitive; `p` is the call that is now unanswered. -/
def State.request (s : State) (p : Pending) (c : Call) : State := { s.log (.call c) with pending := some p }

/-! The steps of SHOW (R104 to R111). -/

/-- R104 after step (a), R106: FSM <- TRANSMIT, SEQ = 0 (R25), and the call T_BEGIN. -/
def State.beginTransaction (s : State) : State :=
  { s with fsm := .transmit, tx := some ⟨[], 0⟩ }.request .beginning .tBegin

/-- R104, R105: SHOW is accepted: GAPWAIT; where GAP_CNT is 0 there is no wait at all. -/
def State.startShow (s : State) : State :=
  let s1 := { s with fsm := .gapwait }
  if s.gapCnt = 0 then s1.beginTransaction else s1

/-- R107, R108: steps (c) and (d): the frame of the current x, ORDER and BRT is built and T_WRITE is called with it. -/
def State.writeFrame (s : State) : State :=
  let buf := encodeFrame s.build s.x s.order s.brt
  { s with tx := some ⟨buf, 0⟩ }.request .writing (.tWrite buf)

/-- R109, R111 (ii): the call T_END; `good` says whether T_WRITE was answered ok, after which all bytes are handed over. -/
def State.endTransaction (s : State) (good : Bool) : State :=
  let tx := if good then s.tx.map fun t => { t with seq := t.buf.length } else s.tx
  { s with tx := tx }.request (.ending good) .tEnd

/-- R110, R111: the end of a SHOW: GAP_CNT <- GAP_TICKS, FSM <- IDLE, the response; the TransmitBuffer and SEQ are gone. -/
def State.finishShow (s : State) (st : Status) : State :=
  { s with gapCnt := s.build.gapTicks, fsm := .idle, tx := none, pending := none }.respond st 0

/-- R113: the transport answers the call in progress.  R96 for T_OPEN, R104 and R111 for the calls of SHOW, R112 for
T_CLOSE, whose answer is ignored.  With no call in progress there is nothing to answer (log 5). -/
def State.answer (s : State) (ok : Bool) : State :=
  match s.pending with
  | none => s
  | some p =>
    let s := s.log (.answer p ok)
    match p with
    | .opening => { s with fsm := if ok then .idle else .closed, pending := none }
    | .beginning => if ok then s.writeFrame else s.finishShow .transportUnavailable
    | .writing => s.endTransaction ok
    | .ending good => s.finishShow (if ok && good then .ok else .transportUnavailable)
    | .closing => { s with fsm := .closed, pending := none }.respond .ok 0

/-- R25, R30: while T_WRITE is in progress the transport takes the next byte of the frame; SEQ never passes 24 N. -/
def State.takeByte (s : State) : State :=
  match s.pending, s.tx with
  | some .writing, some t => { s with tx := some { t with seq := min (t.seq + 1) t.buf.length } }
  | _, _ => s

/-! The clock and reset. -/

/-- R136: one tick: GAP_CNT counts down and stays at 0. -/
abbrev State.countDown (s : State) : State := { s with gapCnt := s.gapCnt - 1, now := s.now + 1 }

/-- R136, R105, R106: one tick; a SHOW in GAPWAIT that finds GAP_CNT = 0 begins its transaction in that tick (log 6). -/
def State.tick (s : State) : State :=
  let s := s.countDown
  if s.fsm = .gapwait ∧ s.gapCnt = 0 then s.beginTransaction else s

/-- R142: `rst` is asserted: the command in progress is discarded without a response, the response port is empty. FSM is
in R117's "(reset)", held as CLOSED (log 4). -/
def State.assertReset (s : State) : State :=
  { s with rst := true, fsm := .closed, tx := none, pending := none, rsp := [] }

/-- R142, R144, R96: `rst` is released: CONSTRUCT loads the reset values, samples the straps and calls T_OPEN(FREQ). With
`rst` not asserted there is nothing to release. -/
def State.releaseReset (s : State) (order : Order) (freq : FreqClass) : State :=
  if s.rst then
    { s with
      x := List.replicate s.count 0#24, brt := 256#9, order := order, freq := freq, fsm := .closed,
      gapCnt := s.build.gapTicks, tx := none, rsp := [], rst := false }.request .opening (.tOpen freq)
  else s

/-! The environment and the command in progress. -/

/-- R12 (1): the effect of one input. -/
def State.react (s : State) (e : Input) : State :=
  match e with
  | .tick => s.tick
  | .answer ok => s.answer ok
  | .takeByte => s.takeByte
  | .word w => s.offer w
  | .takeResponse => s.takeResponse
  | .rstAssert => s.assertReset
  | .rstRelease orderI freqI => s.releaseReset (orderOfCode orderI) (freqOfCode freqI)

/-- A command that has been accepted is still running: a SHOW (R104), or a CLOSE whose T_CLOSE is unanswered (R112). -/
def State.inCommand (s : State) : Bool :=
  s.fsm == .gapwait || s.fsm == .transmit || s.pending == some .closing

/-- R45, R115: the core finishes a command before it accepts the next: the inputs are taken one by one until the command
in progress is complete or cut by reset, or the inputs the run looks at are used up (log 2). -/
def State.runInputs (es : List Input) (s : State) : State :=
  match es with
  | [] => s
  | e :: es => if s.inCommand then State.runInputs es ({ s with inputs := es }.react e) else s

/-- The command in progress with the environment of the state. -/
def State.complete (s : State) : State := State.runInputs s.inputs s

/-- What a step does where no word is accepted: the next input has its effect; where the inputs the run looks at are used
up, the clock goes on (log 2). -/
def State.environment (s : State) : State :=
  match s.inputs with
  | [] => s.tick
  | e :: es => { s with inputs := es }.react e

/-- R115: the word the core accepts now, and the state with that word taken from the port. -/
def State.fetch (s : State) : Option (CmdWord × State) :=
  if s.ready then
    match s.offered with
    | [] => none
    | w :: ws => some (w, { s with offered := ws })
  else none

end Sys2Proof.Machine
end

