-- ==== Sys2Proof/Machine/Operands.lean ====
section
/-! DEFINITION. The operands of the commands (spec/30_encoding.md R62, spec/41_colormodel.md R85): the index and the
brightness operand as the meanings use them.  The channel operands are checked by PACK (R77). -/

namespace Sys2Proof.Machine

/-- R85, R124, R35: the cell an index names, or `none` where the index lies outside 0..N-1 (IndexError); a negative index
does not count from the end (R13). -/
def State.cell (s : State) (index : Int) : Option Nat :=
  if 0 ≤ index ∧ index < s.count then some index.toNat else none

/-- R85, R103: the value of BRT a brightness operand denotes, or `none` where it lies outside 0..256 (RangeError). -/
def brtOperand (brt : Int) : Option (BitVec 9) :=
  if 0 ≤ brt ∧ brt ≤ 2 ^ Config.brtFrac then some (BitVec.ofInt 9 brt) else none

/-- R98, R130: the error SET_PIXEL_RGB reports when both its index and a channel are bad. -/
def State.bothErrors (s : State) : Status :=
  match s.build.errPriority with
  | .indexFirst => .indexError
  | .rangeFirst => .rangeError

end Sys2Proof.Machine
end

