-- ==== Sys2Proof/Machine/PixelCommands.lean ====
section
/-! DEFINITION. The pixel and brightness commands (spec/43_controller.md R97 to R103). -/

namespace Sys2Proof.Machine

/-- R97 SET_PIXEL index, color. -/
def execSetPixel (index : Int) (color : Color) (s : State) : Host.Outcome State Fault Refusal :=
  s.accept fun s =>
    match s.cell index with
    | none => s.raise .indexError
    | some i => (s.writePixel i color).respond .ok 0

/-- R98 SET_PIXEL_RGB index, r, g, b. -/
def execSetPixelRgb (index r g b : Int) (s : State) : Host.Outcome State Fault Refusal :=
  s.accept fun s =>
    match s.cell index, pack r g b with
    | some i, some color => (s.writePixel i color).respond .ok 0
    | none, some _ => s.raise .indexError
    | some _, none => s.raise .rangeError
    | none, none => s.raise s.bothErrors

/-- R99 GET_PIXEL index: the stored colour. -/
def execGetPixel (index : Int) (s : State) : Host.Outcome State Fault Refusal :=
  s.accept fun s =>
    match s.cell index with
    | none => s.raise .indexError
    | some i => s.respond .ok (s.readPixel i)

/-- R100 GET_PIXEL_COLOR index: the channels of the stored colour. -/
def execGetPixelColor (index : Int) (s : State) : Host.Outcome State Fault Refusal :=
  s.accept fun s =>
    match s.cell index with
    | none => s.raise .indexError
    | some i => s.respond .ok (colorOf (unpack (s.readPixel i)))

/-- R101, R64 GET_PIXELS: N response words in ascending index. -/
def execGetPixels (s : State) : Host.Outcome State Fault Refusal :=
  s.accept fun s => s.respondAll s.x

/-- R102 COUNT: N, zero-extended to 24 bits. -/
def execCount (s : State) : Host.Outcome State Fault Refusal :=
  s.accept fun s => s.respond .ok (BitVec.ofNat 24 s.count)

/-- R103 SET_BRIGHTNESS brt. -/
def execSetBrightness (brt : Int) (s : State) : Host.Outcome State Fault Refusal :=
  s.accept fun s =>
    match brtOperand brt with
    | none => s.raise .rangeError
    | some v => (s.writeBrt v).respond .ok 0

end Sys2Proof.Machine
end

