-- ==== Sys2Proof/Machine/ShowCommands.lean ====
section
/-! DEFINITION. The commands that drive the transport: SHOW and CLOSE (spec/43_controller.md R104 to R112). -/

namespace Sys2Proof.Machine

/-- R104 SHOW: the gap wait, then the transaction, as far as the environment lets it run. -/
def execShow (s : State) : Host.Outcome State Fault Refusal :=
  s.accept fun s => s.startShow.complete

/-- R112 CLOSE: T_CLOSE, its answer ignored, then FSM <- CLOSED and the response. -/
def execClose (s : State) : Host.Outcome State Fault Refusal :=
  s.accept fun s => (s.request .closing .tClose).complete

end Sys2Proof.Machine
end

