-- ==== Sys2Proof/Machine/Dispatch.lean ====
section
/-! DEFINITION. One arm per command: exec calls the meaning of each. -/

namespace Sys2Proof.Machine

def exec (i : Instr) (s : State) : Host.Outcome State Fault Refusal :=
  match i with
  | .setPixel index color => Sys2Proof.Machine.execSetPixel index color s
  | .setPixelRgb index r g b => Sys2Proof.Machine.execSetPixelRgb index r g b s
  | .getPixel index => Sys2Proof.Machine.execGetPixel index s
  | .getPixelColor index => Sys2Proof.Machine.execGetPixelColor index s
  | .getPixels => Sys2Proof.Machine.execGetPixels s
  | .count => Sys2Proof.Machine.execCount s
  | .setBrightness brt => Sys2Proof.Machine.execSetBrightness brt s
  | .showFrame => Sys2Proof.Machine.execShow s
  | .close => Sys2Proof.Machine.execClose s

end Sys2Proof.Machine
end

