-- ==== Sys2Proof/Machine/Step.lean ====
section
/-! DEFINITION. One step: the core accepts a command word and runs it, or the environment makes its next move. -/

namespace Sys2Proof.Machine

/-- R115, R116, R65: where the core is ready and a word is offered, the word is taken from the port and runs as the
command it decodes to, or is answered IllegalCommand; everywhere else one input of the environment has its effect. -/
def step (s : State) : Host.Outcome State Fault Refusal :=
  match s.fetch with
  | none => .next s.environment
  | some (w, s) =>
    match decode w with
    | .ok i => exec i s
    | .error _ => .next s.rejectWord

/-- The state with the word `w` first on the command port of a core that is ready for it, so that the very next step
accepts exactly this word: a command in progress and untaken responses are put aside, CLOSED stays CLOSED. -/
def State.withFetchWord (s : State) (nbits w : Nat) : State :=
  { s with
    offered := BitVec.ofNat 64 (w % 2 ^ nbits) :: s.offered, rst := false, rsp := [], pending := none, tx := none,
    fsm := if s.fsm = .closed then .closed else .idle }

end Sys2Proof.Machine
end

