-- ==== Sys2Proof/Safety.lean ====
section
/-! DEFINITION. What counts as a safe state and a safe run, in the terms the statements use: the invariant of the state
(spec/10_state.md), the response words (spec/30_encoding.md R63), the transport trace and the inter-frame gap
(spec/60_exceptions.md R137, R139). -/

namespace Sys2Proof.Machine

/-- A run of `n` steps that stops at no fault and no refusal. -/
def SafeRun (n : Nat) (s : State) : Prop := ∃ t : State, Sys2Proof.core.run n s = .next t

/-- R89, R107: the frame of the values the state holds now. -/
def State.frame (s : State) : List Byte := encodeFrame s.build s.x s.order s.brt

/-- R25, R26, R106 to R111: what the TransmitBuffer and SEQ hold while the call `p` is unanswered. -/
def Transmit.fits (t : Transmit) (frame : List Byte) : Pending → Prop
  | .beginning => t.buf = [] ∧ t.seq = 0
  | .writing => t.buf = frame ∧ t.seq ≤ frame.length
  | .ending true => t.buf = frame ∧ t.seq = frame.length
  | .ending false => t.buf = frame ∧ t.seq ≤ frame.length
  | .opening => False
  | .closing => False

/-- R22, R26, R105, R115, R137: what holds in each state of FSM. -/
def State.phaseOk (s : State) : Prop :=
  match s.fsm with
  | .idle => s.tx = none ∧ s.rst = false ∧ (s.pending = none ∨ s.pending = some .closing ∧ s.rsp = [])
  | .closed => s.tx = none ∧ (s.pending = none ∨ s.pending = some .opening ∧ s.rst = false ∧ s.rsp = [])
  | .gapwait => s.tx = none ∧ s.rst = false ∧ s.pending = none ∧ s.rsp = [] ∧ s.gapCnt ≠ 0
  | .transmit =>
      s.gapCnt = 0 ∧ s.rst = false ∧ s.rsp = [] ∧
        ∃ t p, s.tx = some t ∧ s.pending = some p ∧ t.fits s.frame p

/-- The invariant of the state: R4 the pixel count, R5 and R7 the build, R17 the values BRT holds, R23 the range of
GAP_CNT, R142 the port in reset, and what each state of FSM implies. -/
structure State.Inv (s : State) : Prop where
  pixels : 1 ≤ s.count ∧ s.count ≤ Config.maxPixels
  build : s.build.wf = true
  brt : s.brt.toNat ≤ 256
  gap : s.gapCnt ≤ s.build.gapTicks
  inReset : s.rst = true → s.fsm = .closed ∧ s.pending = none ∧ s.rsp = []
  phase : s.phaseOk

/-- R63: a response word: a status of the table, zero in 27:24, and no data unless the status is OK. -/
def LegalResponse (w : RspWord) : Prop :=
  statusField w ∈ [0#4, 1#4, 2#4, 3#4, 15#4] ∧ w.extractLsb' 24 4 = 0#4 ∧ (statusField w ≠ 0#4 → dataField w = 0#24)

/-- R63: every response word the core has sent is legal. -/
def State.ResponsesLegal (s : State) : Prop := ∀ w ∈ s.rsp ++ s.taken, LegalResponse w

/-- R91, R90, R108: the bytes of a T_WRITE are 24 for each pixel, each one of the two PulseBytes. -/
def IsFrameOf (b : Build) (n : Nat) (bytes : List Byte) : Prop :=
  bytes.length = 24 * n ∧ ∀ v ∈ bytes, v = b.pulseZero ∨ v = b.pulseOne

/-- R108: every T_WRITE the core has made carries one whole frame. -/
def State.WritesAreFrames (s : State) : Prop :=
  ∀ e ∈ s.trace, ∀ bytes, e.event = .call (.tWrite bytes) → IsFrameOf s.build s.count bytes

/-- The call T_BEGIN. -/
def TraceEntry.isBegin (e : TraceEntry) : Bool := e.event == .call .tBegin

/-- R139: a point of an earlier transaction (a call of SHOW or an answer to one) or the release of reset (T_OPEN is called
at its tick, R144). -/
def TraceEntry.isGapPoint (e : TraceEntry) : Bool :=
  match e.event with
  | .call (.tOpen _) => true
  | .call .tBegin => true
  | .call (.tWrite _) => true
  | .call .tEnd => true
  | .call .tClose => false
  | .answer .opening _ => false
  | .answer .beginning _ => true
  | .answer .writing _ => true
  | .answer (.ending _) _ => true
  | .answer .closing _ => false

/-- R139 for a trace: every T_BEGIN is at least GAP_TICKS after every earlier point. -/
def GapRespected (gapTicks : Nat) (trace : List TraceEntry) : Prop :=
  trace.Pairwise fun e l => e.isGapPoint = true → l.isBegin = true → e.tick + gapTicks ≤ l.tick

/-- R139, R138: the trace keeps the gap, and GAP_CNT holds what is still owed of it. -/
structure State.GapSafe (s : State) : Prop where
  spaced : GapRespected s.build.gapTicks s.trace
  past : ∀ e ∈ s.trace, e.tick ≤ s.now
  due : s.fsm ≠ .transmit → s.rst = false →
    ∀ e ∈ s.trace, e.isGapPoint = true → e.tick + s.build.gapTicks ≤ s.now + s.gapCnt

/-! What the inputs of a stretch of time hold, for the statements about SHOW and CLOSE. -/

/-- An input that neither answers a call nor resets the core. -/
def Input.quiet : Input → Bool
  | .tick => true
  | .answer _ => false
  | .takeByte => true
  | .word _ => true
  | .takeResponse => true
  | .rstAssert => false
  | .rstRelease _ _ => false

/-- An input that does not reset the core. -/
def Input.noReset : Input → Bool
  | .rstAssert => false
  | .rstRelease _ _ => false
  | .tick => true
  | .answer _ => true
  | .takeByte => true
  | .word _ => true
  | .takeResponse => true

/-- How many ticks pass. -/
def ticksOf : List Input → Nat
  | [] => 0
  | .tick :: es => ticksOf es + 1
  | .answer _ :: es => ticksOf es
  | .takeByte :: es => ticksOf es
  | .word _ :: es => ticksOf es
  | .takeResponse :: es => ticksOf es
  | .rstAssert :: es => ticksOf es
  | .rstRelease _ _ :: es => ticksOf es

/-- The command words the host offers. -/
def wordsOf : List Input → List CmdWord
  | [] => []
  | .word w :: es => w :: wordsOf es
  | .tick :: es => wordsOf es
  | .answer _ :: es => wordsOf es
  | .takeByte :: es => wordsOf es
  | .takeResponse :: es => wordsOf es
  | .rstAssert :: es => wordsOf es
  | .rstRelease _ _ :: es => wordsOf es

end Sys2Proof.Machine
end

