-- ==== Sys2Proof/Certificates/Slice0/Obligations.lean ====
section
/-! DEFINITION. The statements for the provers, from the spec's numbered rules.

Response words are written out as numbers: 0x00000000 OK, 0x10000000 RangeError, 0x20000000 IndexError, 0x30000000
TransportUnavailableError, 0xF0000000 IllegalCommand (R63).  `s.ready = true` is `cmd_ready` (R115).  That no tick
passes inside a command but while SHOW or CLOSE waits is R159 ("a model gives these no duration"), log 7. -/

open Sys2Proof Sys2Proof.Machine

/-! ### Encoding -/

/-- R55 to R62: no bit of an encoding is dropped: a well-formed instruction is what its word decodes to. -/
def Obligations.DecodeOfEncodeIsTheInstruction : Prop :=
  ∀ i : Instr, i.wf = true → decode (encode i) = .ok i

/-- R65: each word has one meaning: a word that decodes is the encoding of the well-formed instruction it decodes to. -/
def Obligations.LegalWordIsItsInstructionsEncoding : Prop :=
  ∀ (w : CmdWord) (i : Instr), decode w = .ok i → i.wf = true ∧ encode i = w

/-- R65 (a), (b) with the MBZ bits of R57 to R61, said in numbers: `op` is the top byte; a word is illegal exactly where
`op` is not 1..9 or an MBZ bit of its format is 1. -/
def Obligations.IllegalWordIsReservedOpOrNonzeroMbz : Prop :=
  ∀ w : CmdWord,
    (∃ e, decode w = .error e) ↔
      (w.toNat / 2 ^ 56 = 0 ∨ 9 < w.toNat / 2 ^ 56) ∨
      (w.toNat / 2 ^ 56 = 1 ∧ w.toNat / 2 ^ 24 % 2 ^ 16 ≠ 0) ∨
      (w.toNat / 2 ^ 56 = 2 ∧ w.toNat / 2 ^ 36 % 2 ^ 4 ≠ 0) ∨
      ((w.toNat / 2 ^ 56 = 3 ∨ w.toNat / 2 ^ 56 = 4) ∧ w.toNat % 2 ^ 40 ≠ 0) ∨
      ((w.toNat / 2 ^ 56 = 5 ∨ w.toNat / 2 ^ 56 = 6 ∨ w.toNat / 2 ^ 56 = 8 ∨ w.toNat / 2 ^ 56 = 9) ∧
        w.toNat % 2 ^ 56 ≠ 0) ∨
      (w.toNat / 2 ^ 56 = 7 ∧ w.toNat / 2 ^ 16 % 2 ^ 40 ≠ 0)

/-- Words of the spec's tables 2.6 and 2.7 (95_test_vectors.md), one per command and three illegal ones, decode as written
there (GET_PIXEL_COLOR 2 stands in 2.7, the others in 2.6). -/
def Obligations.SpecWordsDecodeAsWritten : Prop :=
  decode 0x0100010000123456#64 = .ok (.setPixel 1 0x123456#24) ∧
  decode 0x02FFFF012C000000#64 = .ok (.setPixelRgb (-1) 300 0 0) ∧
  decode 0x03FFFF0000000000#64 = .ok (.getPixel (-1)) ∧
  decode 0x0400020000000000#64 = .ok (.getPixelColor 2) ∧
  decode 0x0500000000000000#64 = .ok .getPixels ∧
  decode 0x0600000000000000#64 = .ok .count ∧
  decode 0x070000000000FFFF#64 = .ok (.setBrightness (-1)) ∧
  decode 0x0800000000000000#64 = .ok .showFrame ∧
  decode 0x0900000000000000#64 = .ok .close ∧
  decode 0x0000000000000000#64 = .error .reservedOp ∧
  decode 0x0600000000000001#64 = .error .nonzeroMbz ∧
  decode 0x01000200010000FF#64 = .error .nonzeroMbz

/-! ### The step -/

/-- R115, R65: where the core is ready and the first word offered decodes to i, the step takes the word from the port and
is `exec` of i at that state. -/
def Obligations.StepRunsTheDecodedInstruction : Prop :=
  ∀ (s : State) (w : CmdWord) (ws : List CmdWord) (i : Instr),
    s.ready = true → s.offered = w :: ws → decode w = .ok i → step s = exec i { s with offered := ws }

/-- R116: an illegal word accepted in IDLE or in CLOSED is answered IllegalCommand and nothing else happens; in CLOSED a
legal word is answered TransportUnavailableError. -/
def Obligations.IllegalWordIsAnsweredIllegalCommand : Prop :=
  ∀ (s : State) (w : CmdWord) (ws : List CmdWord),
    s.ready = true → s.offered = w :: ws →
      (∀ e, decode w = .error e → step s = .next { s with offered := ws, rsp := [0xF0000000#32] }) ∧
      (∀ i, decode w = .ok i → s.fsm = .closed →
        step s = .next { s with offered := ws, rsp := [0x30000000#32] })

/-- R115: the core is ready only in IDLE or CLOSED, out of reset, with no transport call unanswered (no command and no
T_OPEN in progress) and every response taken; while it is not, a step accepts no word: every word the host has offered is
still offered, in order. -/
def Obligations.CommandWaitsUntilTheCoreIsReady : Prop :=
  ∀ s : State,
    (s.ready = true ↔ (s.fsm = .idle ∨ s.fsm = .closed) ∧ s.rst = false ∧ s.pending = none ∧ s.rsp = []) ∧
    (s.ready = false → ∃ t, step s = .next t ∧ s.offered <+: t.offered)

/-- R27, R131: no step and no run stops: n steps from any state end in a next state.  (That each error is a response word is
said by the statements of the commands and of the illegal words.) -/
def Obligations.EveryRunIsSafe : Prop :=
  ∀ (n : Nat) (s : State), SafeRun n s

/-! ### Pixel and brightness commands -/

/-- R97 SET_PIXEL, op 0x01 format IC: a valid index: the cell holds the colour and the answer is OK; else IndexError and
nothing written. -/
def Obligations.SetPixelStoresTheColour : Prop :=
  (∀ (idx : BitVec 16) (color : Color), decode (0x01#8 ++ idx ++ 0#16 ++ color) = .ok (.setPixel idx.toInt color)) ∧
  ∀ (s : State) (color : Color), s.ready = true → s.fsm = .idle →
    (∀ i : Nat, i < s.x.length →
      exec (.setPixel i color) s = .next { s with x := s.x.set i color, rsp := [0x00000000#32] }) ∧
    (∀ index : Int, index < 0 ∨ (s.x.length : Int) ≤ index →
      exec (.setPixel index color) s = .next { s with rsp := [0x20000000#32] })

/-- R98 SET_PIXEL_RGB, op 0x02 format IT: all valid: the cell holds red, green, blue in 23:16, 15:8, 7:0; else the error of R98, with
ERR_PRIORITY deciding where both hold. -/
def Obligations.SetPixelRgbStoresOrReportsItsError : Prop :=
  (∀ (idx : BitVec 16) (r g b : BitVec 12),
    decode (0x02#8 ++ idx ++ 0#4 ++ r ++ g ++ b) = .ok (.setPixelRgb idx.toInt r.toInt g.toInt b.toInt)) ∧
  ∀ (s : State) (index r g b : Int), s.ready = true → s.fsm = .idle →
    let idxBad := index < 0 ∨ (s.x.length : Int) ≤ index
    let rngBad := r < 0 ∨ 255 < r ∨ g < 0 ∨ 255 < g ∨ b < 0 ∨ 255 < b
    (¬ idxBad → ¬ rngBad →
      exec (.setPixelRgb index r g b) s =
        .next { s with x := s.x.set index.toNat (BitVec.ofInt 24 (r * 65536 + g * 256 + b)),
                       rsp := [0x00000000#32] }) ∧
    (idxBad → ¬ rngBad → exec (.setPixelRgb index r g b) s = .next { s with rsp := [0x20000000#32] }) ∧
    (¬ idxBad → rngBad → exec (.setPixelRgb index r g b) s = .next { s with rsp := [0x10000000#32] }) ∧
    (idxBad → rngBad → s.build.errPriority = .indexFirst →
      exec (.setPixelRgb index r g b) s = .next { s with rsp := [0x20000000#32] }) ∧
    (idxBad → rngBad → s.build.errPriority = .rangeFirst →
      exec (.setPixelRgb index r g b) s = .next { s with rsp := [0x10000000#32] })

/-- R99, R100: GET_PIXEL, op 0x03, and GET_PIXEL_COLOR, op 0x04, format I: a valid index: the stored colour, unscaled; else IndexError. -/
def Obligations.GetPixelReturnsTheStoredColour : Prop :=
  (∀ idx : BitVec 16, decode (0x03#8 ++ idx ++ 0#40) = .ok (.getPixel idx.toInt) ∧
    decode (0x04#8 ++ idx ++ 0#40) = .ok (.getPixelColor idx.toInt)) ∧
  ∀ s : State, s.ready = true → s.fsm = .idle →
    (∀ (i : Nat) (c : Color), s.x[i]? = some c →
      exec (.getPixel i) s = .next { s with rsp := [c.setWidth 32] } ∧
      exec (.getPixelColor i) s = .next { s with rsp := [c.setWidth 32] }) ∧
    (∀ index : Int, index < 0 ∨ (s.x.length : Int) ≤ index →
      exec (.getPixel index) s = .next { s with rsp := [0x20000000#32] } ∧
      exec (.getPixelColor index) s = .next { s with rsp := [0x20000000#32] })

/-- R101 GET_PIXELS, op 0x05 format N: N words in ascending order, each the stored colour with status OK; while one of them
is untaken the core is not ready (so the words are a snapshot). -/
def Obligations.GetPixelsReturnsTheWholeArray : Prop :=
  decode 0x0500000000000000#64 = .ok .getPixels ∧
  ∀ s : State, s.ready = true → s.fsm = .idle →
    exec .getPixels s = .next { s with rsp := s.x.map fun c => c.setWidth 32 } ∧
    ∀ u : State, u.rsp ≠ [] → u.ready = false

/-- R102 COUNT, op 0x06 format N: N, for every N the spec admits (R4). -/
def Obligations.CountReturnsThePixelCount : Prop :=
  decode 0x0600000000000000#64 = .ok .count ∧
  ∀ s : State, s.ready = true → s.fsm = .idle → s.x.length ≤ 32767 →
    exec .count s = .next { s with rsp := [BitVec.ofNat 32 s.x.length] }

/-- R103 SET_BRIGHTNESS, op 0x07 format B: 0..256 is written to BRT; else RangeError and BRT as it was. -/
def Obligations.SetBrightnessWritesBrt : Prop :=
  (∀ brt : BitVec 16, decode (0x07#8 ++ 0#16 ++ 0#24 ++ brt) = .ok (.setBrightness brt.toInt)) ∧
  ∀ s : State, s.ready = true → s.fsm = .idle →
    (∀ n : Nat, n ≤ 256 →
      exec (.setBrightness n) s = .next { s with brt := BitVec.ofNat 9 n, rsp := [0x00000000#32] }) ∧
    (∀ brt : Int, brt < 0 ∨ 256 < brt → exec (.setBrightness brt) s = .next { s with rsp := [0x10000000#32] })

/-- R114: in CLOSED every legal command, whatever its operands, is answered TransportUnavailableError and nothing else
happens. -/
def Obligations.ClosedCoreAnswersTransportUnavailable : Prop :=
  ∀ (s : State) (i : Instr), s.ready = true → s.fsm = .closed →
    exec i s = .next { s with rsp := [0x30000000#32] }

/-- R43, R14: the frame of the reads: GET_PIXEL, GET_PIXEL_COLOR, GET_PIXELS and COUNT change nothing but the response
port. -/
def Obligations.ReadCommandsChangeOnlyTheResponsePort : Prop :=
  ∀ (s t : State) (i : Instr),
    ((∃ index, i = .getPixel index ∨ i = .getPixelColor index) ∨ i = .getPixels ∨ i = .count) →
    exec i s = .next t → t = { s with rsp := t.rsp }

/-- R97, R98, R42: the frame of the pixel writes: SET_PIXEL and SET_PIXEL_RGB change nothing but the one cell and the
response port; the length of the array stays. -/
def Obligations.PixelWritesChangeOnlyTheirCell : Prop :=
  ∀ (s t : State) (i : Instr) (index : Int),
    ((∃ color, i = .setPixel index color) ∨ (∃ r g b, i = .setPixelRgb index r g b)) →
    exec i s = .next t →
      t = { s with x := t.x, rsp := t.rsp } ∧ t.x.length = s.x.length ∧
      ∀ j : Nat, (j : Int) ≠ index → t.x[j]? = s.x[j]?

/-- R103, R18: the frame of SET_BRIGHTNESS: nothing but BRT and the response port changes; no cell does. -/
def Obligations.SetBrightnessChangesOnlyBrt : Prop :=
  ∀ (s t : State) (brt : Int), exec (.setBrightness brt) s = .next t → t = { s with brt := t.brt, rsp := t.rsp }

/-- R122, R128: a command answered RangeError or IndexError leaves everything but the response port as it was. -/
def Obligations.RejectedCommandLeavesTheStateUnchanged : Prop :=
  ∀ (s t : State) (i : Instr), s.ready = true → exec i s = .next t →
    (t.rsp = [0x10000000#32] ∨ t.rsp = [0x20000000#32]) → t = { s with rsp := t.rsp }

/-- R119, R68: what was set is what is read, whatever BRT is: SET_PIXEL then GET_PIXEL, and SET_PIXEL_RGB then
GET_PIXEL_COLOR, once the host has taken the first answer. -/
def Obligations.ReadAfterWriteGivesTheColourSet : Prop :=
  ∀ (s : State) (i : Nat), s.ready = true → s.fsm = .idle → i < s.x.length →
    (∀ color : Color, ∃ t u, exec (.setPixel i color) s = .next t ∧ exec (.getPixel i) t.takeResponse = .next u ∧
      u.rsp = [color.setWidth 32]) ∧
    (∀ r g b : Byte, ∃ t u, exec (.setPixelRgb i r.toNat g.toNat b.toNat) s = .next t ∧
      exec (.getPixelColor i) t.takeResponse = .next u ∧ u.rsp = [(r ++ g ++ b).setWidth 32])

/-- R43: SET_PIXEL, SET_PIXEL_RGB and SET_BRIGHTNESS are idempotent: done again once the answer is taken, each leaves the
pixels and the brightness the first left, and gives the same answer. -/
def Obligations.SetCommandsAreIdempotent : Prop :=
  ∀ (s t u : State) (i : Instr),
    ((∃ index color, i = .setPixel index color) ∨ (∃ index r g b, i = .setPixelRgb index r g b) ∨
      (∃ brt, i = .setBrightness brt)) →
    s.ready = true → exec i s = .next t → exec i t.takeResponse = .next u →
      u.x = t.x ∧ u.brt = t.brt ∧ u.rsp = t.rsp

/-! ### SHOW and CLOSE -/

/-- R104 to R110 SHOW, all three calls answered ok.  The inputs are q1, an answer, q2, an answer, q3, an answer, where the
q's answer nothing and do not reset, and q1 has at least GAP_CNT ticks.  T_BEGIN is called after GAP_CNT ticks (the
earliest tick R106 allows, log 6); that T_WRITE and T_END are called in the tick of the answer before them is the model's
choice too (log 7).  T_WRITE is called with the whole frame of the values at acceptance (R47), then T_END; then GAP_CNT is
reloaded, the core is IDLE and the answer is OK.  Nothing else changes but what the q's bring (time, words offered). -/
def Obligations.ShowTransmitsTheFrame : Prop :=
  ∀ (s : State) (q1 q2 q3 rest : List Input), s.ready = true → s.fsm = .idle →
    s.inputs = q1 ++ .answer true :: (q2 ++ .answer true :: (q3 ++ .answer true :: rest)) →
    (∀ e ∈ q1 ++ q2 ++ q3, e.quiet = true) → s.gapCnt ≤ ticksOf q1 →
    exec .showFrame s = .next
      { s with
        gapCnt := s.build.gapTicks, fsm := .idle, tx := none, pending := none, rsp := [0x00000000#32],
        inputs := rest, offered := s.offered ++ wordsOf (q1 ++ q2 ++ q3), now := s.now + ticksOf (q1 ++ q2 ++ q3),
        trace := s.trace ++
          [⟨s.now + s.gapCnt, .call .tBegin⟩,
           ⟨s.now + ticksOf q1, .answer .beginning true⟩,
           ⟨s.now + ticksOf q1, .call (.tWrite (encodeFrame s.build s.x s.order s.brt))⟩,
           ⟨s.now + ticksOf (q1 ++ q2), .answer .writing true⟩,
           ⟨s.now + ticksOf (q1 ++ q2), .call .tEnd⟩,
           ⟨s.now + ticksOf (q1 ++ q2 ++ q3), .answer (.ending true) true⟩] }

/-- R111: a transport failure inside SHOW (the tick of T_BEGIN is the model's choice, log 6; so is that T_WRITE and T_END
are called in the tick of the answer before them, log 7).  (i) T_BEGIN fails: no T_WRITE, no T_END.  (ii) T_WRITE fails: T_END is called
once and its answer b is ignored.  (iii) T_END fails: nothing more.  In all three GAP_CNT is reloaded, the core is IDLE,
the answer is TransportUnavailableError, and x, BRT, ORDER, FREQ are unchanged. -/
def Obligations.ShowFailureEndsTheTransaction : Prop :=
  ∀ (s : State) (q1 q2 q3 rest : List Input) (b : Bool), s.ready = true → s.fsm = .idle →
    (∀ e ∈ q1 ++ q2 ++ q3, e.quiet = true) → s.gapCnt ≤ ticksOf q1 →
    (s.inputs = q1 ++ .answer false :: rest →
      exec .showFrame s = .next
        { s with
          gapCnt := s.build.gapTicks, fsm := .idle, tx := none, pending := none, rsp := [0x30000000#32],
          inputs := rest, offered := s.offered ++ wordsOf q1, now := s.now + ticksOf q1,
          trace := s.trace ++
            [⟨s.now + s.gapCnt, .call .tBegin⟩,
             ⟨s.now + ticksOf q1, .answer .beginning false⟩] }) ∧
    (s.inputs = q1 ++ .answer true :: (q2 ++ .answer false :: (q3 ++ .answer b :: rest)) →
      exec .showFrame s = .next
        { s with
          gapCnt := s.build.gapTicks, fsm := .idle, tx := none, pending := none, rsp := [0x30000000#32],
          inputs := rest, offered := s.offered ++ wordsOf (q1 ++ q2 ++ q3), now := s.now + ticksOf (q1 ++ q2 ++ q3),
          trace := s.trace ++
            [⟨s.now + s.gapCnt, .call .tBegin⟩,
             ⟨s.now + ticksOf q1, .answer .beginning true⟩,
             ⟨s.now + ticksOf q1, .call (.tWrite (encodeFrame s.build s.x s.order s.brt))⟩,
             ⟨s.now + ticksOf (q1 ++ q2), .answer .writing false⟩,
             ⟨s.now + ticksOf (q1 ++ q2), .call .tEnd⟩,
             ⟨s.now + ticksOf (q1 ++ q2 ++ q3), .answer (.ending false) b⟩] }) ∧
    (s.inputs = q1 ++ .answer true :: (q2 ++ .answer true :: (q3 ++ .answer false :: rest)) →
      exec .showFrame s = .next
        { s with
          gapCnt := s.build.gapTicks, fsm := .idle, tx := none, pending := none, rsp := [0x30000000#32],
          inputs := rest, offered := s.offered ++ wordsOf (q1 ++ q2 ++ q3), now := s.now + ticksOf (q1 ++ q2 ++ q3),
          trace := s.trace ++
            [⟨s.now + s.gapCnt, .call .tBegin⟩,
             ⟨s.now + ticksOf q1, .answer .beginning true⟩,
             ⟨s.now + ticksOf q1, .call (.tWrite (encodeFrame s.build s.x s.order s.brt))⟩,
             ⟨s.now + ticksOf (q1 ++ q2), .answer .writing true⟩,
             ⟨s.now + ticksOf (q1 ++ q2), .call .tEnd⟩,
             ⟨s.now + ticksOf (q1 ++ q2 ++ q3), .answer (.ending true) false⟩] })

/-- R105, R106: a SHOW whose inputs hold fewer ticks than GAP_CNT and no answer is still in GAPWAIT and has called nothing;
with at least GAP_CNT ticks it is in TRANSMIT and has called T_BEGIN after exactly GAP_CNT ticks, with none of the wait
where GAP_CNT was 0.  That T_BEGIN is called in the earliest tick R106 allows (log 6), and that the TransmitBuffer is
still empty until T_BEGIN is answered (log 18; R107 lets the frame be computed earlier), is the model's choice. -/
def Obligations.ShowWaitsOutTheGap : Prop :=
  ∀ s : State, s.ready = true → s.fsm = .idle → (∀ e ∈ s.inputs, e.quiet = true) →
    (ticksOf s.inputs < s.gapCnt →
      exec .showFrame s = .next
        { s with
          fsm := .gapwait, gapCnt := s.gapCnt - ticksOf s.inputs, inputs := [],
          offered := s.offered ++ wordsOf s.inputs, now := s.now + ticksOf s.inputs }) ∧
    (s.gapCnt ≤ ticksOf s.inputs →
      exec .showFrame s = .next
        { s with
          fsm := .transmit, gapCnt := 0, tx := some ⟨[], 0⟩, pending := some .beginning, inputs := [],
          offered := s.offered ++ wordsOf s.inputs, now := s.now + ticksOf s.inputs,
          trace := s.trace ++ [⟨s.now + s.gapCnt, .call .tBegin⟩] })

/-- R121, R119: the frame of SHOW: whatever the inputs hold and wherever the SHOW stands, x, BRT, ORDER, FREQ, the build and
the responses the host already took are unchanged; the trace and the words offered only grow.  Only FSM, GAP_CNT, SEQ and
TransmitBuffer, the call in progress, the response port, the clock, the inputs and the reset line may differ, the reset
line only where the inputs hold a reset.  (That registers keep their values while `rst` is asserted is log 15.) -/
def Obligations.ShowLeavesPixelsAndConfigurationAlone : Prop :=
  ∀ s t : State, exec .showFrame s = .next t →
    t = { s with fsm := t.fsm, gapCnt := t.gapCnt, tx := t.tx, pending := t.pending, rsp := t.rsp, rst := t.rst,
                 now := t.now, trace := t.trace, offered := t.offered, inputs := t.inputs } ∧
    s.trace <+: t.trace ∧ s.offered <+: t.offered ∧
    ((∀ e ∈ s.inputs, e.noReset = true) → t.rst = s.rst)

/-- R112 CLOSE, op 0x09 format N: one call T_CLOSE, its answer b ignored; then FSM is CLOSED and the answer is OK.  GAP_CNT
is not written: it only counts the ticks that pass until the answer (R136).  That T_CLOSE is called in the tick CLOSE is
accepted, and the response sent in the tick of the answer, is the model's choice (log 7, R159). -/
def Obligations.CloseClosesTheCore : Prop :=
  decode 0x0900000000000000#64 = .ok .close ∧
  ∀ (s : State) (q rest : List Input) (b : Bool), s.ready = true → s.fsm = .idle →
    s.inputs = q ++ .answer b :: rest → (∀ e ∈ q, e.quiet = true) →
    exec .close s = .next
      { s with
        fsm := .closed, pending := none, gapCnt := s.gapCnt - ticksOf q, rsp := [0x00000000#32], inputs := rest,
        offered := s.offered ++ wordsOf q, now := s.now + ticksOf q,
        trace := s.trace ++ [⟨s.now, .call .tClose⟩, ⟨s.now + ticksOf q, .answer .closing b⟩] }

/-- R112: the frame of CLOSE, whatever the inputs hold: x, BRT, ORDER, FREQ, the build and the responses the host already
took are unchanged, and so are SEQ, the TransmitBuffer and the reset line where the inputs hold no reset; the trace and the
words offered only grow.  (That registers keep their values while `rst` is asserted is log 15.) -/
def Obligations.CloseLeavesPixelsAndConfigurationAlone : Prop :=
  ∀ s t : State, exec .close s = .next t →
    t = { s with fsm := t.fsm, gapCnt := t.gapCnt, tx := t.tx, pending := t.pending, rsp := t.rsp, rst := t.rst,
                 now := t.now, trace := t.trace, offered := t.offered, inputs := t.inputs } ∧
    s.trace <+: t.trace ∧ s.offered <+: t.offered ∧
    ((∀ e ∈ s.inputs, e.noReset = true) → t.rst = s.rst ∧ t.tx = s.tx)

/-- R142, R145: `rst` asserted while a SHOW or a CLOSE runs, wherever it stands.  q is what the environment did until then (no
reset in it), u the state the command reaches with q alone.  A command complete in u (`inCommand` is false: the core is in
neither GAPWAIT nor TRANSMIT and T_CLOSE is not unanswered) is as it was, the reset still to come.  A command still running
in u is discarded without a response: nothing is in progress, no frame exists, x, BRT, ORDER, FREQ are those before the
command (log 15), the words offered stay the host's (log 14), FSM is held as CLOSED (log 4); and the trace ends in a call
that has no answer, or is the one before the command where no call had been made (the gap wait). -/
def Obligations.ResetDiscardsTheCommandInProgress : Prop :=
  ∀ (s u : State) (i : Instr) (q rest : List Input), (i = .showFrame ∨ i = .close) → s.ready = true → s.fsm = .idle →
    (∀ e ∈ q, e.noReset = true) → exec i { s with inputs := q } = .next u →
    (u.inCommand = false →
      exec i { s with inputs := q ++ .rstAssert :: rest } = .next { u with inputs := u.inputs ++ .rstAssert :: rest }) ∧
    (u.inCommand = true →
      exec i { s with inputs := q ++ .rstAssert :: rest } = .next
        { s with
          rst := true, fsm := .closed, gapCnt := u.gapCnt, tx := none, pending := none, rsp := [], inputs := rest,
          offered := u.offered, now := u.now, trace := u.trace } ∧
      u.inputs = [] ∧ u.rsp = [] ∧
      (u.pending = none → u.fsm = .gapwait ∧ u.trace = s.trace) ∧
      (u.pending ≠ none → ∃ tick c, u.trace.getLast? = some ⟨tick, .call c⟩))

/-- R120: no SET or GET command, COUNT or SET_BRIGHTNESS calls a transport primitive or moves FSM. -/
def Obligations.OnlyShowAndCloseCallTheTransport : Prop :=
  ∀ (s t : State) (i : Instr), i ≠ .showFrame → i ≠ .close → exec i s = .next t →
    t.trace = s.trace ∧ t.pending = s.pending ∧ t.fsm = s.fsm

/-! ### The datapath -/

/-- R72: the i-th PulseByte of ENCODE_BYTE(v) is the one pulse iff bit (7 - i) of v is set, else the zero pulse; eight
bytes in all. -/
def Obligations.EncodeByteFollowsTheBits : Prop :=
  ∀ (b : Build) (v : Byte), (encodeByte b v).length = 8 ∧
    ∀ i : Nat, i < 8 → (encodeByte b v)[i]? = some (if v.getLsbD (7 - i) then b.pulseOne else b.pulseZero)

/-- R74: ENCODE_BYTE is injective in every admitted build, and the value is read back as v[7 - i] = 1 iff w[i] is PULSE_ONE. -/
def Obligations.EncodeByteIsInjective : Prop :=
  ∀ (b : Build) (v w : Byte), b.wf = true →
    (encodeByte b v = encodeByte b w → v = w) ∧
    ∀ i : Nat, i < 8 → (v.getLsbD (7 - i) = true ↔ (encodeByte b v)[i]? = some b.pulseOne)

/-- R73: enc_out[8 (7 - i) + 7 : 8 (7 - i)] = w[i]. -/
def Obligations.EncoderOutputHoldsFirstByteHighest : Prop :=
  ∀ (b : Build) (v : Byte) (i : Nat), i < 8 →
    (encodeByte b v)[i]? = some ((encOut b v).extractLsb' (8 * (7 - i)) 8)

/-- R77: PACK gives {r, g, b} where all three lie in 0..255, and RangeError where any does not. -/
def Obligations.PackGivesTheColourOrRangeError : Prop :=
  ∀ r g b : Int,
    ((0 ≤ r ∧ r ≤ 255 ∧ 0 ≤ g ∧ g ≤ 255 ∧ 0 ≤ b ∧ b ≤ 255) →
      pack r g b = some (BitVec.ofInt 24 (r * 65536 + g * 256 + b))) ∧
    (¬ (0 ≤ r ∧ r ≤ 255 ∧ 0 ≤ g ∧ g ≤ 255 ∧ 0 ≤ b ∧ b ≤ 255) → pack r g b = none)

/-- R79: UNPACK(PACK(r, g, b)) = (r, g, b) for all valid r, g, b, and PACK(UNPACK(c)) = c for every Color. -/
def Obligations.PackAndUnpackAreInverse : Prop :=
  (∀ r g b : Byte, (pack r.toNat g.toNat b.toNat).map unpack = some ⟨r, g, b⟩) ∧
  (∀ c : Color, pack (unpack c).r.toNat (unpack c).g.toNat (unpack c).b.toNat = some c)

/-- R80, R83: each channel of SCALE is trunc(ch brt / 256) of the same channel, for every brt in 0..256. -/
def Obligations.ScaleTruncatesEachChannel : Prop :=
  ∀ (c : Color) (brt : BitVec 9), brt.toNat ≤ 256 →
    (scale c brt).r.toNat = (unpack c).r.toNat * brt.toNat / 256 ∧
    (scale c brt).g.toNat = (unpack c).g.toNat * brt.toNat / 256 ∧
    (scale c brt).b.toNat = (unpack c).b.toNat * brt.toNat / 256

/-- R81 (a) to (e). -/
def Obligations.ScaleIsBoundedMonotoneAndIndependent : Prop :=
  (∀ (ch : Byte) (brt : BitVec 9), brt.toNat ≤ 256 → (scaleChannel ch brt).toNat ≤ ch.toNat) ∧
  (∀ ch : Byte, scaleChannel ch 0#9 = 0#8 ∧ scaleChannel ch 256#9 = ch) ∧
  (∀ brt : BitVec 9, scaleChannel 0#8 brt = 0#8) ∧
  (∀ (ch ch' : Byte) (brt : BitVec 9), brt.toNat ≤ 256 → ch.toNat ≤ ch'.toNat →
    (scaleChannel ch brt).toNat ≤ (scaleChannel ch' brt).toNat) ∧
  (∀ (ch : Byte) (brt brt' : BitVec 9), brt'.toNat ≤ 256 → brt.toNat ≤ brt'.toNat →
    (scaleChannel ch brt).toNat ≤ (scaleChannel ch brt').toNat) ∧
  (∀ (ch : Byte) (brt : BitVec 9), brt.toNat ≤ 256 → scaleChannel ch brt = ch → brt = 256#9 ∨ ch = 0#8) ∧
  (∀ (c c' : Color) (brt : BitVec 9),
    ((unpack c).r = (unpack c').r → (scale c brt).r = (scale c' brt).r) ∧
    ((unpack c).g = (unpack c').g → (scale c brt).g = (scale c' brt).g) ∧
    ((unpack c).b = (unpack c').b → (scale c brt).b = (scale c' brt).b))

/-- R87, R88: GRB puts green, red, blue and RGB red, green, blue in slots 0, 1, 2 (blue is never moved); the two give the
same 24 bytes exactly where r = g, in every admitted build. -/
def Obligations.OrdersDifferExactlyWhereRedAndGreenDo : Prop :=
  ∀ (b : Build) (t : Triple), b.wf = true →
    encodePixel b t .grb = encodeByte b t.g ++ encodeByte b t.r ++ encodeByte b t.b ∧
    encodePixel b t .rgb = encodeByte b t.r ++ encodeByte b t.g ++ encodeByte b t.b ∧
    (encodePixel b t .grb = encodePixel b t .rgb ↔ t.r = t.g)

/-- R90, R88: byte k of the frame in closed form: pixel k / 24, slot (k mod 24) / 8, bit 7 - k mod 8 of the scaled channel
that the order puts in the slot. -/
def Obligations.FrameByteClosedForm : Prop :=
  ∀ (b : Build) (px : List Color) (order : Order) (brt : BitVec 9) (k : Nat) (c : Color),
    brt.toNat ≤ 256 → px[k / 24]? = some c →
    let t := unpack c
    let ch : Byte :=
      if k % 24 / 8 = 2 then t.b
      else if k % 24 / 8 = 0 then (if order = .grb then t.g else t.r)
      else (if order = .grb then t.r else t.g)
    (encodeFrame b px order brt)[k]? =
      some (if (ch.toNat * brt.toNat / 256).testBit (7 - k % 8) then b.pulseOne else b.pulseZero)

/-- R91: the frame is exactly 24 N bytes, between 24 and 786408 for the admitted N. -/
def Obligations.FrameHasTwentyFourBytesPerPixel : Prop :=
  ∀ (b : Build) (px : List Color) (order : Order) (brt : BitVec 9),
    (encodeFrame b px order brt).length = 24 * px.length ∧
    (1 ≤ px.length → px.length ≤ 32767 →
      24 ≤ (encodeFrame b px order brt).length ∧ (encodeFrame b px order brt).length ≤ 786408)

/-- R89: brt = 0 gives 24 N zero pulses whatever the colours; brt = 256 encodes the stored colours unscaled; an all-black
array gives 24 N zero pulses at every brightness (so R148: the first SHOW after reset sends those). -/
def Obligations.FrameAtTheEndsOfTheBrightnessRange : Prop :=
  ∀ (b : Build) (px : List Color) (order : Order),
    encodeFrame b px order 0#9 = List.replicate (24 * px.length) b.pulseZero ∧
    encodeFrame b px order 256#9 = px.flatMap (fun c => encodePixel b (unpack c) order) ∧
    ∀ (n : Nat) (brt : BitVec 9),
      encodeFrame b (List.replicate n 0#24) order brt = List.replicate (24 * n) b.pulseZero

/-! ### Reset -/

/-- R143: the state after a reset sequence whose T_OPEN answers ok, for every build, N and strap. -/
def Obligations.ResetLeavesTheResetValues : Prop :=
  ∀ (b : Build) (n : Nat) (order : Order) (freq : FreqClass),
    let s := State.construct b n order freq
    s.x.length = n ∧ (∀ c ∈ s.x, c = 0x000000#24) ∧ s.brt = 256#9 ∧ s.order = order ∧ s.freq = freq ∧
    s.count = n ∧ s.gapCnt = b.gapTicks ∧ s.fsm = .idle ∧ s.tx = none ∧ s.rsp = []

/-- R142, R143, R144, R96: from every state in which no word is accepted first, `rst` asserted and released with the levels
orderI and freqI on the straps (codes of R8: 0 = GRB, 1 = RGB; 0 = K800, 1 = K400), and T_OPEN answered ok or fail: the
reset values, one call T_OPEN(FREQ), IDLE on ok and CLOSED on fail; no response.  That the words offered stay (log 14) and
the record of the run and the clock stay (log 12) is the model's choice. -/
def Obligations.ResetSequenceConstructsTheCore : Prop :=
  ∀ (s : State) (orderI freqI : BitVec 1) (ok : Bool) (rest : List Input),
    (s.ready = false ∨ s.offered = []) →
    s.inputs = .rstAssert :: .rstRelease orderI freqI :: .answer ok :: rest →
    let order : Order := if orderI = 0#1 then .grb else .rgb
    let freq : FreqClass := if freqI = 0#1 then .k800 else .k400
    Sys2Proof.core.run 3 s = .next
      { s with
        x := List.replicate s.x.length 0x000000#24, brt := 256#9, order := order, freq := freq,
        fsm := if ok then .idle else .closed, gapCnt := s.build.gapTicks, tx := none, pending := none, rsp := [],
        rst := false, inputs := rest,
        trace := s.trace ++ [⟨s.now, .call (.tOpen freq)⟩, ⟨s.now, .answer .opening ok⟩] }

/-- R142: while `rst` is asserted and not released the core accepts no command, sends no response and makes no transport
call. -/
def Obligations.CoreInResetDoesNothing : Prop :=
  ∀ s : State, s.Inv → s.rst = true → (∀ orderI freqI, s.inputs.head? ≠ some (.rstRelease orderI freqI)) →
    ∃ t, step s = .next t ∧ t.rst = true ∧ t.rsp = [] ∧ t.trace = s.trace ∧ s.offered <+: t.offered

/-! ### The gap timer -/

/-- R136: in every FSM state a tick lowers GAP_CNT by one, or leaves it at 0, and nothing but the clock, GAP_CNT and the
beginning of a waiting SHOW's transaction changes (that it begins in this tick is the model's choice, log 6). -/
def Obligations.TickCountsTheGapDown : Prop :=
  ∀ s : State,
    s.tick.gapCnt = (if s.gapCnt = 0 then 0 else s.gapCnt - 1) ∧
    s.tick = { s with gapCnt := s.tick.gapCnt, now := s.now + 1, fsm := s.tick.fsm, tx := s.tick.tx,
                      pending := s.tick.pending, trace := s.tick.trace } ∧
    (s.fsm ≠ .gapwait ∨ 1 < s.gapCnt → s.tick = { s with gapCnt := s.gapCnt - 1, now := s.now + 1 })

/-- R138: with nothing offered and only ticks to come, after n steps GAP_CNT = max(0, GAP_CNT - n), in every FSM state. -/
def Obligations.GapCounterClosedForm : Prop :=
  ∀ (s : State) (n : Nat), s.offered = [] → s.inputs = List.replicate n .tick →
    ∃ t, Sys2Proof.core.run n s = .next t ∧ t.gapCnt = s.gapCnt - n ∧ t.now = s.now + n

/-- R7: GAP_TICKS is the least number of ticks that lasts at least 50000 nanoseconds, and is at least 1. -/
def Obligations.GapTicksIsTheCeilingOfFiftyMicroseconds : Prop :=
  ∀ b : Build, b.wf = true →
    1 ≤ b.gapTicks ∧ 50000 * b.tickDen ≤ b.gapTicks * b.tickNum ∧
    ∀ k : Nat, 50000 * b.tickDen ≤ k * b.tickNum → b.gapTicks ≤ k

/-- R139, R137, R138: every step keeps the gap and what GAP_CNT owes of it. -/
def Obligations.StepKeepsTheGap : Prop :=
  ∀ s t : State, s.Inv → s.GapSafe → step s = .next t → t.GapSafe

/-- R139 the guarantee: from reset, in every admitted build, whatever the host offers and whatever the environment does
(transport failures and further resets too), every T_BEGIN is at least GAP_TICKS after every earlier call or answer of a
SHOW and after every release of reset; GAP_TICKS ticks last at least 50000 nanoseconds. -/
def Obligations.RunsFromResetKeepTheGap : Prop :=
  ∀ (b : Build) (n : Nat) (order : Order) (freq : FreqClass) (es : List Input) (ws : List CmdWord) (k : Nat) (t : State),
    b.wf = true → 1 ≤ n → n ≤ 32767 →
    Sys2Proof.core.run k { State.construct b n order freq with inputs := es, offered := ws } = .next t →
    GapRespected b.gapTicks t.trace ∧ 50000 * b.tickDen ≤ b.gapTicks * b.tickNum

/-! ### The whole machine -/

/-- The invariant holds after reset, in every admitted build, T_OPEN answered or not. -/
def Obligations.ResetMeetsTheInvariant : Prop :=
  ∀ (b : Build) (n : Nat) (order : Order) (freq : FreqClass), b.wf = true → 1 ≤ n → n ≤ 32767 →
    (State.construct b n order freq).Inv ∧ (State.powerUp b n order freq).Inv ∧
    (State.construct b n order freq).GapSafe ∧ (State.powerUp b n order freq).GapSafe ∧ State.reset.Inv

/-- R4, R17, R22, R23, R25, R26, R105, R137: every step keeps the invariant of the state.  Some clauses of the invariant are
the model's and no rule: FSM held as CLOSED in reset (log 4), GAPWAIT only with GAP_CNT not 0 (log 6), SEQ = 24 N after a
T_WRITE answered ok (log 9), the TransmitBuffer empty until T_BEGIN is answered (log 18). -/
def Obligations.StepKeepsTheInvariant : Prop :=
  ∀ s t : State, s.Inv → step s = .next t → t.Inv

/-- R63: status codes 4..14 are never sent, bits 27:24 are zero, and data is 0 unless the status is OK. -/
def Obligations.StepSendsOnlyLegalResponses : Prop :=
  ∀ s t : State, s.ResponsesLegal → step s = .next t → t.ResponsesLegal

/-- R108, R91, R90: every T_WRITE carries one whole frame of 24 N PulseBytes. -/
def Obligations.StepWritesOnlyWholeFrames : Prop :=
  ∀ s t : State, s.WritesAreFrames → step s = .next t → t.WritesAreFrames

/-- R4, R13: no step changes the pixel count or the build. -/
def Obligations.PixelCountAndBuildNeverChange : Prop :=
  ∀ s t : State, step s = .next t → t.x.length = s.x.length ∧ t.build = s.build

/-- R14, R17, R19, R20: a step takes some inputs, `used`, off the front of the list; where no reset is among those, it changes
x only by accepting SET_PIXEL or SET_PIXEL_RGB and BRT only by accepting SET_BRIGHTNESS (the core is ready and IDLE, and the
word is taken from the port), and ORDER and FREQ never. -/
def Obligations.RegistersChangeOnlyByTheirCommands : Prop :=
  ∀ s t : State, step s = .next t →
    ∃ used, s.inputs = used ++ t.inputs ∧
      ((∀ e ∈ used, e.noReset = true) →
        (t.x ≠ s.x → s.ready = true ∧ s.fsm = .idle ∧ ∃ w, s.offered = w :: t.offered ∧
          ((∃ index color, decode w = .ok (.setPixel index color)) ∨
           (∃ index r g b, decode w = .ok (.setPixelRgb index r g b)))) ∧
        (t.brt ≠ s.brt → s.ready = true ∧ s.fsm = .idle ∧ ∃ w brt, s.offered = w :: t.offered ∧
          decode w = .ok (.setBrightness brt)) ∧
        t.order = s.order ∧ t.freq = s.freq)

/-- R117: the transitions of FSM on an input: GAPWAIT to TRANSMIT on a tick that brings GAP_CNT to 0; TRANSMIT to IDLE on the
fail answer to T_BEGIN or an answer to T_END, GAP_CNT reloaded; IDLE to CLOSED on the answer to T_CLOSE; (reset) to IDLE
on the ok answer to T_OPEN; any state to (reset) on rst; and no other.  R117's (reset) is no value of FSM: that the field
holds CLOSED in it, so that the row (reset) to IDLE reads CLOSED to IDLE here, is the model's choice (log 4); the core's own
CLOSED is left by reset only (R22). -/
def Obligations.FsmMovesOnlyAsTheTableSays : Prop :=
  ∀ (s : State) (e : Input), s.Inv → (s.react e).fsm ≠ s.fsm →
    (s.fsm = .gapwait ∧ e = .tick ∧ (s.react e).gapCnt = 0 ∧ (s.react e).fsm = .transmit) ∨
    (s.fsm = .transmit ∧ (s.pending = some .beginning ∧ e = .answer false ∨ ∃ good ok, s.pending = some (.ending good) ∧ e = .answer ok) ∧
      (s.react e).gapCnt = s.build.gapTicks ∧ (s.react e).fsm = .idle) ∨
    (s.fsm = .idle ∧ s.pending = some .closing ∧ (∃ ok, e = .answer ok) ∧ (s.react e).fsm = .closed) ∨
    (s.fsm = .closed ∧ s.pending = some .opening ∧ e = .answer true ∧ (s.react e).fsm = .idle) ∨
    (e = .rstAssert ∧ (s.react e).rst = true)

/-- R25, R34: while T_WRITE is in progress each byte the transport takes advances SEQ by 1, up to 24 N, and changes nothing
else. -/
def Obligations.SeqCountsTheBytesHandedOver : Prop :=
  ∀ s : State, s.Inv → s.pending = some .writing →
    ∃ t, s.tx = some t ∧
      s.react .takeByte = { s with tx := some { t with seq := if t.seq < 24 * s.x.length then t.seq + 1 else t.seq } }

/-- R8, R19, R20, R30: the codes of ORDER and FREQ: 0 = GRB, 1 = RGB; 0 = K800, 1 = K400; a code stands for exactly one
value; the request T_OPEN carries the code of FREQ, every other request 0; the kinds of request are 0 to 4. -/
def Obligations.CodesOfOrderFreqAndRequests : Prop :=
  (orderOfCode 0#1 = .grb ∧ orderOfCode 1#1 = .rgb ∧ freqOfCode 0#1 = .k800 ∧ freqOfCode 1#1 = .k400) ∧
  (∀ (order : Order) (code : BitVec 1), orderOfCode code = order ↔ orderCode order = code) ∧
  (∀ (freq : FreqClass) (code : BitVec 1), freqOfCode code = freq ↔ freqCode freq = code) ∧
  (∀ freq : FreqClass, (Call.tOpen freq).kind = 0#3 ∧ (Call.tOpen freq).arg = freqCode freq) ∧
  (Call.tBegin.kind = 1#3 ∧ (∀ bytes, (Call.tWrite bytes).kind = 2#3) ∧ Call.tEnd.kind = 3#3 ∧ Call.tClose.kind = 4#3) ∧
  (Call.tBegin.arg = 0#1 ∧ (∀ bytes, (Call.tWrite bytes).arg = 0#1) ∧ Call.tEnd.arg = 0#1 ∧ Call.tClose.arg = 0#1)
end

