-- ==== Sys2Proof/Laws/Decode.lean ====
section
/-! SUPPORT. The fields of a command word as numbers, the number of a command word built from its fields, and the signed
operands in their fields. -/

namespace Sys2Proof

/-- Concatenation as numbers: the lower part is added below the higher. -/
theorem toNat_append_eq {m n : Nat} (a : BitVec m) (b : BitVec n) : (a ++ b).toNat = a.toNat * 2 ^ n + b.toNat := by
  rw [BitVec.toNat_append, ← Nat.shiftLeft_add_eq_or_of_lt b.isLt, Nat.shiftLeft_eq]

theorem commandWord_toNat (op : BitVec 8) (idx : BitVec 16) (pay : BitVec 40) :
    (commandWord op idx pay).toNat = op.toNat * 2 ^ 56 + idx.toNat * 2 ^ 40 + pay.toNat := by
  have h : (commandWord op idx pay).toNat = (op.toNat * 2 ^ 16 + idx.toNat) * 2 ^ 40 + pay.toNat := by
    rw [← toNat_append_eq, ← toNat_append_eq]; rfl
  rw [h]; omega

section Fields
variable (w : CmdWord)

theorem opField_toNat : (opField w).toNat = w.toNat / 2 ^ 56 := by
  have := w.isLt
  simp only [opField, BitVec.extractLsb'_toNat, Nat.shiftRight_eq_div_pow]; omega
theorem idxField_toNat : (idxField w).toNat = w.toNat / 2 ^ 40 % 2 ^ 16 := by
  simp only [idxField, BitVec.extractLsb'_toNat, Nat.shiftRight_eq_div_pow]
theorem payField_toNat : (payField w).toNat = w.toNat % 2 ^ 40 := by
  simp only [payField, BitVec.extractLsb'_toNat, Nat.shiftRight_eq_div_pow]; omega
theorem colorField_toNat : (colorField w).toNat = w.toNat % 2 ^ 24 := by
  simp only [colorField, BitVec.extractLsb'_toNat, Nat.shiftRight_eq_div_pow]; omega
theorem icMbzField_toNat : (icMbzField w).toNat = w.toNat / 2 ^ 24 % 2 ^ 16 := by
  simp only [icMbzField, BitVec.extractLsb'_toNat, Nat.shiftRight_eq_div_pow]
theorem itMbzField_toNat : (itMbzField w).toNat = w.toNat / 2 ^ 36 % 2 ^ 4 := by
  simp only [itMbzField, BitVec.extractLsb'_toNat, Nat.shiftRight_eq_div_pow]
theorem redField_toNat : (redField w).toNat = w.toNat / 2 ^ 24 % 2 ^ 12 := by
  simp only [redField, BitVec.extractLsb'_toNat, Nat.shiftRight_eq_div_pow]
theorem greenField_toNat : (greenField w).toNat = w.toNat / 2 ^ 12 % 2 ^ 12 := by
  simp only [greenField, BitVec.extractLsb'_toNat, Nat.shiftRight_eq_div_pow]
theorem blueField_toNat : (blueField w).toNat = w.toNat % 2 ^ 12 := by
  simp only [blueField, BitVec.extractLsb'_toNat, Nat.shiftRight_eq_div_pow]; omega
theorem bMbzField_toNat : (bMbzField w).toNat = w.toNat / 2 ^ 16 % 2 ^ 24 := by
  simp only [bMbzField, BitVec.extractLsb'_toNat, Nat.shiftRight_eq_div_pow]
theorem brtField_toNat : (brtField w).toNat = w.toNat % 2 ^ 16 := by
  simp only [brtField, BitVec.extractLsb'_toNat, Nat.shiftRight_eq_div_pow]; omega

end Fields

/-! Signed operands: a value in the range of a field survives being written to it and read back. -/

theorem toInt_ofInt_of_fits {n : Nat} {v : Int} (hn : 0 < n) (h : fitsSigned n v = true) :
    (BitVec.ofInt n v).toInt = v := by
  simp only [fitsSigned, Bool.and_eq_true, decide_eq_true_eq] at h
  exact BitVec.toInt_ofInt_eq_self hn h.1 h.2

theorem fits_toInt {n : Nat} (v : BitVec n) : fitsSigned n v.toInt = true := by
  simp only [fitsSigned, Bool.and_eq_true, decide_eq_true_eq]
  exact ⟨BitVec.le_toInt v, BitVec.toInt_lt⟩

/-! The payloads of the formats as numbers (R57 to R61). -/

theorem payIC_toNat (color : Color) : ((0 : BitVec 16) ++ color : BitVec 40).toNat = color.toNat := by
  have h := toNat_append_eq (0 : BitVec 16) color
  simp only [BitVec.ofNat_eq_ofNat, BitVec.toNat_ofNat] at h
  exact h.trans (by omega)

theorem payIT_toNat (r g b : BitVec 12) :
    ((0 : BitVec 4) ++ r ++ g ++ b : BitVec 40).toNat = r.toNat * 2 ^ 24 + g.toNat * 2 ^ 12 + b.toNat := by
  have h : ((0 : BitVec 4) ++ r ++ g ++ b : BitVec 40).toNat =
      (((0 : BitVec 4).toNat * 2 ^ 12 + r.toNat) * 2 ^ 12 + g.toNat) * 2 ^ 12 + b.toNat := by
    rw [← toNat_append_eq, ← toNat_append_eq, ← toNat_append_eq]
  have h0 : (0 : BitVec 4).toNat = 0 := rfl
  rw [h, h0]; omega

theorem payB_toNat (v : BitVec 16) : ((0 : BitVec 24) ++ v : BitVec 40).toNat = v.toNat := by
  have h := toNat_append_eq (0 : BitVec 24) v
  simp only [BitVec.ofNat_eq_ofNat, BitVec.toNat_ofNat] at h
  exact h.trans (by omega)

/-! The fields of a command word built from its parts. -/

section Built
variable (op : BitVec 8) (idx : BitVec 16) (pay : BitVec 40)

@[simp] theorem opField_commandWord : opField (commandWord op idx pay) = op := by
  have := idx.isLt; have := pay.isLt
  apply BitVec.eq_of_toNat_eq
  rw [opField_toNat, commandWord_toNat]; omega

@[simp] theorem idxField_commandWord : idxField (commandWord op idx pay) = idx := by
  have := idx.isLt; have := pay.isLt
  apply BitVec.eq_of_toNat_eq
  rw [idxField_toNat, commandWord_toNat]; omega

@[simp] theorem payField_commandWord : payField (commandWord op idx pay) = pay := by
  have := idx.isLt; have := pay.isLt
  apply BitVec.eq_of_toNat_eq
  rw [payField_toNat, commandWord_toNat]; omega

end Built

/-- A word is built from its own three fields (R55). -/
theorem commandWord_fields (w : CmdWord) : commandWord (opField w) (idxField w) (payField w) = w := by
  apply BitVec.eq_of_toNat_eq
  rw [commandWord_toNat, opField_toNat, idxField_toNat, payField_toNat]; omega

/-- The map from codes to operations and back (R56). -/
theorem opcodeOf_opcodeWord (o : Opcode) : opcodeOf (opcodeWord o) = some o := by
  cases o <;> rfl

theorem opcodeWord_of_opcodeOf {c : BitVec 8} {o : Opcode} (h : opcodeOf c = some o) : opcodeWord o = c := by
  unfold opcodeOf at h
  split at h <;> cases h
  all_goals (apply BitVec.eq_of_toNat_eq; simp_all [opcodeWord])

/-- Decoding by its two checks (R65): the code is assigned and the MBZ fields are zero. -/
theorem decode_ok_iff (w : CmdWord) (i : Instr) :
    decode w = .ok i ↔ ∃ o, opcodeOf (opField w) = some o ∧ mbzClear (formatOf o) w = true ∧ assemble o w = i := by
  unfold decode
  cases h : opcodeOf (opField w) with
  | none => simp
  | some o => by_cases hm : mbzClear (formatOf o) w = true <;> simp [hm]

end Sys2Proof
end

