-- ==== Sys2Proof/Laws/Datapath.lean ====
section
/-! SUPPORT. The datapath functions as numbers and as lists: colours, the brightness multiplier, waveforms, frames. -/

namespace Sys2Proof.Machine

/-! Colours (R50, R78). -/

theorem colorOf_toNat (t : Triple) : (colorOf t).toNat = t.r.toNat * 65536 + t.g.toNat * 256 + t.b.toNat := by
  have h : (colorOf t).toNat = (t.r.toNat * 2 ^ 8 + t.g.toNat) * 2 ^ 8 + t.b.toNat := by
    rw [← toNat_append_eq, ← toNat_append_eq]; rfl
  rw [h]; omega

theorem unpack_r_toNat (c : Color) : (unpack c).r.toNat = c.toNat / 65536 := by
  have := c.isLt
  simp only [unpack, BitVec.extractLsb'_toNat, Nat.shiftRight_eq_div_pow]; omega

theorem unpack_g_toNat (c : Color) : (unpack c).g.toNat = c.toNat / 256 % 256 := by
  simp only [unpack, BitVec.extractLsb'_toNat, Nat.shiftRight_eq_div_pow]

theorem unpack_b_toNat (c : Color) : (unpack c).b.toNat = c.toNat % 256 := by
  simp only [unpack, BitVec.extractLsb'_toNat, Nat.shiftRight_eq_div_pow]; simp

@[simp] theorem colorOf_unpack (c : Color) : colorOf (unpack c) = c := by
  apply BitVec.eq_of_toNat_eq
  rw [colorOf_toNat, unpack_r_toNat, unpack_g_toNat, unpack_b_toNat]; omega

@[simp] theorem unpack_colorOf (t : Triple) : unpack (colorOf t) = t := by
  have hr := unpack_r_toNat (colorOf t)
  have hg := unpack_g_toNat (colorOf t)
  have hb := unpack_b_toNat (colorOf t)
  rw [colorOf_toNat] at hr hg hb
  have := t.r.isLt; have := t.g.isLt; have := t.b.isLt
  have er : (unpack (colorOf t)).r = t.r := BitVec.eq_of_toNat_eq (by omega)
  have eg : (unpack (colorOf t)).g = t.g := BitVec.eq_of_toNat_eq (by omega)
  have eb : (unpack (colorOf t)).b = t.b := BitVec.eq_of_toNat_eq (by omega)
  calc unpack (colorOf t) = ⟨(unpack (colorOf t)).r, (unpack (colorOf t)).g, (unpack (colorOf t)).b⟩ := rfl
    _ = t := by rw [er, eg, eb]

/-- A non-negative integer below the field's size is its own low bits. -/
theorem ofInt_toNat_of {n : Nat} {v : Int} (h0 : 0 ≤ v) (h1 : v < 2 ^ n) : (BitVec.ofInt n v).toNat = v.toNat := by
  obtain ⟨k, rfl⟩ := Int.eq_ofNat_of_zero_le h0
  rw [BitVec.ofInt_natCast, BitVec.toNat_ofNat]
  have : k < 2 ^ n := by exact_mod_cast h1
  simp [Nat.mod_eq_of_lt this]

/-- PACK succeeds exactly on operands in range, and gives their Color. -/
theorem pack_some {r g b : Int} {c : Color} (h : pack r g b = some c) :
    c = colorOf ⟨BitVec.ofInt 8 r, BitVec.ofInt 8 g, BitVec.ofInt 8 b⟩ := by
  unfold pack at h
  split at h
  · exact (Option.some.inj h).symm
  · cases h

/-! The brightness multiplier (R80, R82). -/

theorem scaleChannel_toNat (ch : Byte) {brt : BitVec 9} (h : brt.toNat ≤ 256) :
    (scaleChannel ch brt).toNat = ch.toNat * brt.toNat / 256 := by
  have hc := ch.isLt
  have hp : ch.toNat * brt.toNat ≤ 255 * 256 := Nat.mul_le_mul (by omega) h
  have hs : ch.toNat * brt.toNat / 256 < 2 ^ 8 := by omega
  simp only [scaleChannel, Nat.shiftRight_eq_div_pow, BitVec.toNat_ofNat]
  exact Nat.mod_eq_of_lt hs

/-! Waveforms and frames (R70, R87, R89). -/

@[simp] theorem encodeByte_length (b : Build) (v : Byte) : (encodeByte b v).length = 8 := by
  simp [encodeByte, memRead]

@[simp] theorem encodePixel_length (b : Build) (t : Triple) (o : Order) : (encodePixel b t o).length = 24 := by
  cases o <;> simp [encodePixel, slots]

theorem encodeFrame_cons (b : Build) (c : Color) (px : List Color) (o : Order) (brt : BitVec 9) :
    encodeFrame b (c :: px) o brt = encodePixel b (scale c brt) o ++ encodeFrame b px o brt := rfl

/-- Byte a of the LUT is a PulseByte (R33, R72). -/
theorem lutByte_pulse (b : Build) (a : Nat) : lutByte b a = b.pulseZero ∨ lutByte b a = b.pulseOne := by
  unfold lutByte
  split
  · exact .inr rfl
  · exact .inl rfl

theorem encodeByte_pulse {b : Build} {v w : Byte} (h : w ∈ encodeByte b v) : w = b.pulseZero ∨ w = b.pulseOne := by
  obtain ⟨i, -, rfl⟩ := List.mem_map.1 h
  exact lutByte_pulse b _

theorem encodeFrame_pulse {b : Build} {px : List Color} {o : Order} {brt : BitVec 9} {w : Byte}
    (h : w ∈ encodeFrame b px o brt) : w = b.pulseZero ∨ w = b.pulseOne := by
  obtain ⟨c, -, hc⟩ := List.mem_flatMap.1 h
  obtain ⟨v, -, hv⟩ := List.mem_flatMap.1 hc
  exact encodeByte_pulse hv

end Sys2Proof.Machine
end

