-- ==== Sys2Proof/Laws/State.lean ====
section
/-! SUPPORT. One lemma per field per update of the state, each true by rfl, so that no later proof unfolds an update. -/

namespace Sys2Proof.Machine

variable (s : State)

@[simp] theorem State.writePixel_x (i : Nat) (v : Color) : (s.writePixel i v).x = s.x.set i v := rfl
@[simp] theorem State.writePixel_brt (i : Nat) (v : Color) : (s.writePixel i v).brt = s.brt := rfl
@[simp] theorem State.writePixel_order (i : Nat) (v : Color) : (s.writePixel i v).order = s.order := rfl
@[simp] theorem State.writePixel_freq (i : Nat) (v : Color) : (s.writePixel i v).freq = s.freq := rfl
@[simp] theorem State.writePixel_fsm (i : Nat) (v : Color) : (s.writePixel i v).fsm = s.fsm := rfl
@[simp] theorem State.writePixel_gapCnt (i : Nat) (v : Color) : (s.writePixel i v).gapCnt = s.gapCnt := rfl
@[simp] theorem State.writePixel_tx (i : Nat) (v : Color) : (s.writePixel i v).tx = s.tx := rfl
@[simp] theorem State.writePixel_pending (i : Nat) (v : Color) : (s.writePixel i v).pending = s.pending := rfl
@[simp] theorem State.writePixel_rsp (i : Nat) (v : Color) : (s.writePixel i v).rsp = s.rsp := rfl
@[simp] theorem State.writePixel_rst (i : Nat) (v : Color) : (s.writePixel i v).rst = s.rst := rfl
@[simp] theorem State.writePixel_offered (i : Nat) (v : Color) : (s.writePixel i v).offered = s.offered := rfl
@[simp] theorem State.writePixel_inputs (i : Nat) (v : Color) : (s.writePixel i v).inputs = s.inputs := rfl
@[simp] theorem State.writePixel_now (i : Nat) (v : Color) : (s.writePixel i v).now = s.now := rfl
@[simp] theorem State.writePixel_trace (i : Nat) (v : Color) : (s.writePixel i v).trace = s.trace := rfl
@[simp] theorem State.writePixel_taken (i : Nat) (v : Color) : (s.writePixel i v).taken = s.taken := rfl
@[simp] theorem State.writePixel_build (i : Nat) (v : Color) : (s.writePixel i v).build = s.build := rfl

@[simp] theorem State.writeBrt_x (v : BitVec 9) : (s.writeBrt v).x = s.x := rfl
@[simp] theorem State.writeBrt_brt (v : BitVec 9) : (s.writeBrt v).brt = v := rfl
@[simp] theorem State.writeBrt_order (v : BitVec 9) : (s.writeBrt v).order = s.order := rfl
@[simp] theorem State.writeBrt_freq (v : BitVec 9) : (s.writeBrt v).freq = s.freq := rfl
@[simp] theorem State.writeBrt_fsm (v : BitVec 9) : (s.writeBrt v).fsm = s.fsm := rfl
@[simp] theorem State.writeBrt_gapCnt (v : BitVec 9) : (s.writeBrt v).gapCnt = s.gapCnt := rfl
@[simp] theorem State.writeBrt_tx (v : BitVec 9) : (s.writeBrt v).tx = s.tx := rfl
@[simp] theorem State.writeBrt_pending (v : BitVec 9) : (s.writeBrt v).pending = s.pending := rfl
@[simp] theorem State.writeBrt_rsp (v : BitVec 9) : (s.writeBrt v).rsp = s.rsp := rfl
@[simp] theorem State.writeBrt_rst (v : BitVec 9) : (s.writeBrt v).rst = s.rst := rfl
@[simp] theorem State.writeBrt_offered (v : BitVec 9) : (s.writeBrt v).offered = s.offered := rfl
@[simp] theorem State.writeBrt_inputs (v : BitVec 9) : (s.writeBrt v).inputs = s.inputs := rfl
@[simp] theorem State.writeBrt_now (v : BitVec 9) : (s.writeBrt v).now = s.now := rfl
@[simp] theorem State.writeBrt_trace (v : BitVec 9) : (s.writeBrt v).trace = s.trace := rfl
@[simp] theorem State.writeBrt_taken (v : BitVec 9) : (s.writeBrt v).taken = s.taken := rfl
@[simp] theorem State.writeBrt_build (v : BitVec 9) : (s.writeBrt v).build = s.build := rfl

@[simp] theorem State.respond_x (st : Status) (d : BitVec 24) : (s.respond st d).x = s.x := rfl
@[simp] theorem State.respond_brt (st : Status) (d : BitVec 24) : (s.respond st d).brt = s.brt := rfl
@[simp] theorem State.respond_order (st : Status) (d : BitVec 24) : (s.respond st d).order = s.order := rfl
@[simp] theorem State.respond_freq (st : Status) (d : BitVec 24) : (s.respond st d).freq = s.freq := rfl
@[simp] theorem State.respond_fsm (st : Status) (d : BitVec 24) : (s.respond st d).fsm = s.fsm := rfl
@[simp] theorem State.respond_gapCnt (st : Status) (d : BitVec 24) : (s.respond st d).gapCnt = s.gapCnt := rfl
@[simp] theorem State.respond_tx (st : Status) (d : BitVec 24) : (s.respond st d).tx = s.tx := rfl
@[simp] theorem State.respond_pending (st : Status) (d : BitVec 24) : (s.respond st d).pending = s.pending := rfl
@[simp] theorem State.respond_rsp (st : Status) (d : BitVec 24) : (s.respond st d).rsp = s.rsp ++ [responseWord st d] := rfl
@[simp] theorem State.respond_rst (st : Status) (d : BitVec 24) : (s.respond st d).rst = s.rst := rfl
@[simp] theorem State.respond_offered (st : Status) (d : BitVec 24) : (s.respond st d).offered = s.offered := rfl
@[simp] theorem State.respond_inputs (st : Status) (d : BitVec 24) : (s.respond st d).inputs = s.inputs := rfl
@[simp] theorem State.respond_now (st : Status) (d : BitVec 24) : (s.respond st d).now = s.now := rfl
@[simp] theorem State.respond_trace (st : Status) (d : BitVec 24) : (s.respond st d).trace = s.trace := rfl
@[simp] theorem State.respond_taken (st : Status) (d : BitVec 24) : (s.respond st d).taken = s.taken := rfl
@[simp] theorem State.respond_build (st : Status) (d : BitVec 24) : (s.respond st d).build = s.build := rfl

@[simp] theorem State.raise_x (e : Status) : (s.raise e).x = s.x := rfl
@[simp] theorem State.raise_brt (e : Status) : (s.raise e).brt = s.brt := rfl
@[simp] theorem State.raise_order (e : Status) : (s.raise e).order = s.order := rfl
@[simp] theorem State.raise_freq (e : Status) : (s.raise e).freq = s.freq := rfl
@[simp] theorem State.raise_fsm (e : Status) : (s.raise e).fsm = s.fsm := rfl
@[simp] theorem State.raise_gapCnt (e : Status) : (s.raise e).gapCnt = s.gapCnt := rfl
@[simp] theorem State.raise_tx (e : Status) : (s.raise e).tx = s.tx := rfl
@[simp] theorem State.raise_pending (e : Status) : (s.raise e).pending = s.pending := rfl
@[simp] theorem State.raise_rsp (e : Status) : (s.raise e).rsp = s.rsp ++ [responseWord e 0] := rfl
@[simp] theorem State.raise_rst (e : Status) : (s.raise e).rst = s.rst := rfl
@[simp] theorem State.raise_offered (e : Status) : (s.raise e).offered = s.offered := rfl
@[simp] theorem State.raise_inputs (e : Status) : (s.raise e).inputs = s.inputs := rfl
@[simp] theorem State.raise_now (e : Status) : (s.raise e).now = s.now := rfl
@[simp] theorem State.raise_trace (e : Status) : (s.raise e).trace = s.trace := rfl
@[simp] theorem State.raise_taken (e : Status) : (s.raise e).taken = s.taken := rfl
@[simp] theorem State.raise_build (e : Status) : (s.raise e).build = s.build := rfl

@[simp] theorem State.rejectWord_x : (s.rejectWord).x = s.x := rfl
@[simp] theorem State.rejectWord_brt : (s.rejectWord).brt = s.brt := rfl
@[simp] theorem State.rejectWord_order : (s.rejectWord).order = s.order := rfl
@[simp] theorem State.rejectWord_freq : (s.rejectWord).freq = s.freq := rfl
@[simp] theorem State.rejectWord_fsm : (s.rejectWord).fsm = s.fsm := rfl
@[simp] theorem State.rejectWord_gapCnt : (s.rejectWord).gapCnt = s.gapCnt := rfl
@[simp] theorem State.rejectWord_tx : (s.rejectWord).tx = s.tx := rfl
@[simp] theorem State.rejectWord_pending : (s.rejectWord).pending = s.pending := rfl
@[simp] theorem State.rejectWord_rsp : (s.rejectWord).rsp = s.rsp ++ [responseWord .illegalCommand 0] := rfl
@[simp] theorem State.rejectWord_rst : (s.rejectWord).rst = s.rst := rfl
@[simp] theorem State.rejectWord_offered : (s.rejectWord).offered = s.offered := rfl
@[simp] theorem State.rejectWord_inputs : (s.rejectWord).inputs = s.inputs := rfl
@[simp] theorem State.rejectWord_now : (s.rejectWord).now = s.now := rfl
@[simp] theorem State.rejectWord_trace : (s.rejectWord).trace = s.trace := rfl
@[simp] theorem State.rejectWord_taken : (s.rejectWord).taken = s.taken := rfl
@[simp] theorem State.rejectWord_build : (s.rejectWord).build = s.build := rfl

@[simp] theorem State.respondAll_x (vs : List Color) : (s.respondAll vs).x = s.x := rfl
@[simp] theorem State.respondAll_brt (vs : List Color) : (s.respondAll vs).brt = s.brt := rfl
@[simp] theorem State.respondAll_order (vs : List Color) : (s.respondAll vs).order = s.order := rfl
@[simp] theorem State.respondAll_freq (vs : List Color) : (s.respondAll vs).freq = s.freq := rfl
@[simp] theorem State.respondAll_fsm (vs : List Color) : (s.respondAll vs).fsm = s.fsm := rfl
@[simp] theorem State.respondAll_gapCnt (vs : List Color) : (s.respondAll vs).gapCnt = s.gapCnt := rfl
@[simp] theorem State.respondAll_tx (vs : List Color) : (s.respondAll vs).tx = s.tx := rfl
@[simp] theorem State.respondAll_pending (vs : List Color) : (s.respondAll vs).pending = s.pending := rfl
@[simp] theorem State.respondAll_rsp (vs : List Color) : (s.respondAll vs).rsp = s.rsp ++ vs.map (responseWord .ok) := rfl
@[simp] theorem State.respondAll_rst (vs : List Color) : (s.respondAll vs).rst = s.rst := rfl
@[simp] theorem State.respondAll_offered (vs : List Color) : (s.respondAll vs).offered = s.offered := rfl
@[simp] theorem State.respondAll_inputs (vs : List Color) : (s.respondAll vs).inputs = s.inputs := rfl
@[simp] theorem State.respondAll_now (vs : List Color) : (s.respondAll vs).now = s.now := rfl
@[simp] theorem State.respondAll_trace (vs : List Color) : (s.respondAll vs).trace = s.trace := rfl
@[simp] theorem State.respondAll_taken (vs : List Color) : (s.respondAll vs).taken = s.taken := rfl
@[simp] theorem State.respondAll_build (vs : List Color) : (s.respondAll vs).build = s.build := rfl

@[simp] theorem State.offer_x (w : CmdWord) : (s.offer w).x = s.x := rfl
@[simp] theorem State.offer_brt (w : CmdWord) : (s.offer w).brt = s.brt := rfl
@[simp] theorem State.offer_order (w : CmdWord) : (s.offer w).order = s.order := rfl
@[simp] theorem State.offer_freq (w : CmdWord) : (s.offer w).freq = s.freq := rfl
@[simp] theorem State.offer_fsm (w : CmdWord) : (s.offer w).fsm = s.fsm := rfl
@[simp] theorem State.offer_gapCnt (w : CmdWord) : (s.offer w).gapCnt = s.gapCnt := rfl
@[simp] theorem State.offer_tx (w : CmdWord) : (s.offer w).tx = s.tx := rfl
@[simp] theorem State.offer_pending (w : CmdWord) : (s.offer w).pending = s.pending := rfl
@[simp] theorem State.offer_rsp (w : CmdWord) : (s.offer w).rsp = s.rsp := rfl
@[simp] theorem State.offer_rst (w : CmdWord) : (s.offer w).rst = s.rst := rfl
@[simp] theorem State.offer_offered (w : CmdWord) : (s.offer w).offered = s.offered ++ [w] := rfl
@[simp] theorem State.offer_inputs (w : CmdWord) : (s.offer w).inputs = s.inputs := rfl
@[simp] theorem State.offer_now (w : CmdWord) : (s.offer w).now = s.now := rfl
@[simp] theorem State.offer_trace (w : CmdWord) : (s.offer w).trace = s.trace := rfl
@[simp] theorem State.offer_taken (w : CmdWord) : (s.offer w).taken = s.taken := rfl
@[simp] theorem State.offer_build (w : CmdWord) : (s.offer w).build = s.build := rfl

@[simp] theorem State.log_x (e : TransportEvent) : (s.log e).x = s.x := rfl
@[simp] theorem State.log_brt (e : TransportEvent) : (s.log e).brt = s.brt := rfl
@[simp] theorem State.log_order (e : TransportEvent) : (s.log e).order = s.order := rfl
@[simp] theorem State.log_freq (e : TransportEvent) : (s.log e).freq = s.freq := rfl
@[simp] theorem State.log_fsm (e : TransportEvent) : (s.log e).fsm = s.fsm := rfl
@[simp] theorem State.log_gapCnt (e : TransportEvent) : (s.log e).gapCnt = s.gapCnt := rfl
@[simp] theorem State.log_tx (e : TransportEvent) : (s.log e).tx = s.tx := rfl
@[simp] theorem State.log_pending (e : TransportEvent) : (s.log e).pending = s.pending := rfl
@[simp] theorem State.log_rsp (e : TransportEvent) : (s.log e).rsp = s.rsp := rfl
@[simp] theorem State.log_rst (e : TransportEvent) : (s.log e).rst = s.rst := rfl
@[simp] theorem State.log_offered (e : TransportEvent) : (s.log e).offered = s.offered := rfl
@[simp] theorem State.log_inputs (e : TransportEvent) : (s.log e).inputs = s.inputs := rfl
@[simp] theorem State.log_now (e : TransportEvent) : (s.log e).now = s.now := rfl
@[simp] theorem State.log_trace (e : TransportEvent) : (s.log e).trace = s.trace ++ [⟨s.now, e⟩] := rfl
@[simp] theorem State.log_taken (e : TransportEvent) : (s.log e).taken = s.taken := rfl
@[simp] theorem State.log_build (e : TransportEvent) : (s.log e).build = s.build := rfl

@[simp] theorem State.request_x (p : Pending) (c : Call) : (s.request p c).x = s.x := rfl
@[simp] theorem State.request_brt (p : Pending) (c : Call) : (s.request p c).brt = s.brt := rfl
@[simp] theorem State.request_order (p : Pending) (c : Call) : (s.request p c).order = s.order := rfl
@[simp] theorem State.request_freq (p : Pending) (c : Call) : (s.request p c).freq = s.freq := rfl
@[simp] theorem State.request_fsm (p : Pending) (c : Call) : (s.request p c).fsm = s.fsm := rfl
@[simp] theorem State.request_gapCnt (p : Pending) (c : Call) : (s.request p c).gapCnt = s.gapCnt := rfl
@[simp] theorem State.request_tx (p : Pending) (c : Call) : (s.request p c).tx = s.tx := rfl
@[simp] theorem State.request_pending (p : Pending) (c : Call) : (s.request p c).pending = some p := rfl
@[simp] theorem State.request_rsp (p : Pending) (c : Call) : (s.request p c).rsp = s.rsp := rfl
@[simp] theorem State.request_rst (p : Pending) (c : Call) : (s.request p c).rst = s.rst := rfl
@[simp] theorem State.request_offered (p : Pending) (c : Call) : (s.request p c).offered = s.offered := rfl
@[simp] theorem State.request_inputs (p : Pending) (c : Call) : (s.request p c).inputs = s.inputs := rfl
@[simp] theorem State.request_now (p : Pending) (c : Call) : (s.request p c).now = s.now := rfl
@[simp] theorem State.request_trace (p : Pending) (c : Call) : (s.request p c).trace = s.trace ++ [⟨s.now, .call c⟩] := rfl
@[simp] theorem State.request_taken (p : Pending) (c : Call) : (s.request p c).taken = s.taken := rfl
@[simp] theorem State.request_build (p : Pending) (c : Call) : (s.request p c).build = s.build := rfl

@[simp] theorem State.beginTransaction_x : (s.beginTransaction).x = s.x := rfl
@[simp] theorem State.beginTransaction_brt : (s.beginTransaction).brt = s.brt := rfl
@[simp] theorem State.beginTransaction_order : (s.beginTransaction).order = s.order := rfl
@[simp] theorem State.beginTransaction_freq : (s.beginTransaction).freq = s.freq := rfl
@[simp] theorem State.beginTransaction_fsm : (s.beginTransaction).fsm = .transmit := rfl
@[simp] theorem State.beginTransaction_gapCnt : (s.beginTransaction).gapCnt = s.gapCnt := rfl
@[simp] theorem State.beginTransaction_tx : (s.beginTransaction).tx = some ⟨[], 0⟩ := rfl
@[simp] theorem State.beginTransaction_pending : (s.beginTransaction).pending = some .beginning := rfl
@[simp] theorem State.beginTransaction_rsp : (s.beginTransaction).rsp = s.rsp := rfl
@[simp] theorem State.beginTransaction_rst : (s.beginTransaction).rst = s.rst := rfl
@[simp] theorem State.beginTransaction_offered : (s.beginTransaction).offered = s.offered := rfl
@[simp] theorem State.beginTransaction_inputs : (s.beginTransaction).inputs = s.inputs := rfl
@[simp] theorem State.beginTransaction_now : (s.beginTransaction).now = s.now := rfl
@[simp] theorem State.beginTransaction_trace : (s.beginTransaction).trace = s.trace ++ [⟨s.now, .call .tBegin⟩] := rfl
@[simp] theorem State.beginTransaction_taken : (s.beginTransaction).taken = s.taken := rfl
@[simp] theorem State.beginTransaction_build : (s.beginTransaction).build = s.build := rfl

@[simp] theorem State.writeFrame_x : (s.writeFrame).x = s.x := rfl
@[simp] theorem State.writeFrame_brt : (s.writeFrame).brt = s.brt := rfl
@[simp] theorem State.writeFrame_order : (s.writeFrame).order = s.order := rfl
@[simp] theorem State.writeFrame_freq : (s.writeFrame).freq = s.freq := rfl
@[simp] theorem State.writeFrame_fsm : (s.writeFrame).fsm = s.fsm := rfl
@[simp] theorem State.writeFrame_gapCnt : (s.writeFrame).gapCnt = s.gapCnt := rfl
@[simp] theorem State.writeFrame_tx : (s.writeFrame).tx = some ⟨encodeFrame s.build s.x s.order s.brt, 0⟩ := rfl
@[simp] theorem State.writeFrame_pending : (s.writeFrame).pending = some .writing := rfl
@[simp] theorem State.writeFrame_rsp : (s.writeFrame).rsp = s.rsp := rfl
@[simp] theorem State.writeFrame_rst : (s.writeFrame).rst = s.rst := rfl
@[simp] theorem State.writeFrame_offered : (s.writeFrame).offered = s.offered := rfl
@[simp] theorem State.writeFrame_inputs : (s.writeFrame).inputs = s.inputs := rfl
@[simp] theorem State.writeFrame_now : (s.writeFrame).now = s.now := rfl
@[simp] theorem State.writeFrame_trace : (s.writeFrame).trace = s.trace ++ [⟨s.now, .call (.tWrite (encodeFrame s.build s.x s.order s.brt))⟩] := rfl
@[simp] theorem State.writeFrame_taken : (s.writeFrame).taken = s.taken := rfl
@[simp] theorem State.writeFrame_build : (s.writeFrame).build = s.build := rfl

@[simp] theorem State.endTransaction_x (good : Bool) : (s.endTransaction good).x = s.x := rfl
@[simp] theorem State.endTransaction_brt (good : Bool) : (s.endTransaction good).brt = s.brt := rfl
@[simp] theorem State.endTransaction_order (good : Bool) : (s.endTransaction good).order = s.order := rfl
@[simp] theorem State.endTransaction_freq (good : Bool) : (s.endTransaction good).freq = s.freq := rfl
@[simp] theorem State.endTransaction_fsm (good : Bool) : (s.endTransaction good).fsm = s.fsm := rfl
@[simp] theorem State.endTransaction_gapCnt (good : Bool) : (s.endTransaction good).gapCnt = s.gapCnt := rfl
@[simp] theorem State.endTransaction_tx (good : Bool) : (s.endTransaction good).tx = if good then s.tx.map fun t => { t with seq := t.buf.length } else s.tx := rfl
@[simp] theorem State.endTransaction_pending (good : Bool) : (s.endTransaction good).pending = some (.ending good) := rfl
@[simp] theorem State.endTransaction_rsp (good : Bool) : (s.endTransaction good).rsp = s.rsp := rfl
@[simp] theorem State.endTransaction_rst (good : Bool) : (s.endTransaction good).rst = s.rst := rfl
@[simp] theorem State.endTransaction_offered (good : Bool) : (s.endTransaction good).offered = s.offered := rfl
@[simp] theorem State.endTransaction_inputs (good : Bool) : (s.endTransaction good).inputs = s.inputs := rfl
@[simp] theorem State.endTransaction_now (good : Bool) : (s.endTransaction good).now = s.now := rfl
@[simp] theorem State.endTransaction_trace (good : Bool) : (s.endTransaction good).trace = s.trace ++ [⟨s.now, .call .tEnd⟩] := rfl
@[simp] theorem State.endTransaction_taken (good : Bool) : (s.endTransaction good).taken = s.taken := rfl
@[simp] theorem State.endTransaction_build (good : Bool) : (s.endTransaction good).build = s.build := rfl

@[simp] theorem State.finishShow_x (st : Status) : (s.finishShow st).x = s.x := rfl
@[simp] theorem State.finishShow_brt (st : Status) : (s.finishShow st).brt = s.brt := rfl
@[simp] theorem State.finishShow_order (st : Status) : (s.finishShow st).order = s.order := rfl
@[simp] theorem State.finishShow_freq (st : Status) : (s.finishShow st).freq = s.freq := rfl
@[simp] theorem State.finishShow_fsm (st : Status) : (s.finishShow st).fsm = .idle := rfl
@[simp] theorem State.finishShow_gapCnt (st : Status) : (s.finishShow st).gapCnt = s.build.gapTicks := rfl
@[simp] theorem State.finishShow_tx (st : Status) : (s.finishShow st).tx = none := rfl
@[simp] theorem State.finishShow_pending (st : Status) : (s.finishShow st).pending = none := rfl
@[simp] theorem State.finishShow_rsp (st : Status) : (s.finishShow st).rsp = s.rsp ++ [responseWord st 0] := rfl
@[simp] theorem State.finishShow_rst (st : Status) : (s.finishShow st).rst = s.rst := rfl
@[simp] theorem State.finishShow_offered (st : Status) : (s.finishShow st).offered = s.offered := rfl
@[simp] theorem State.finishShow_inputs (st : Status) : (s.finishShow st).inputs = s.inputs := rfl
@[simp] theorem State.finishShow_now (st : Status) : (s.finishShow st).now = s.now := rfl
@[simp] theorem State.finishShow_trace (st : Status) : (s.finishShow st).trace = s.trace := rfl
@[simp] theorem State.finishShow_taken (st : Status) : (s.finishShow st).taken = s.taken := rfl
@[simp] theorem State.finishShow_build (st : Status) : (s.finishShow st).build = s.build := rfl

@[simp] theorem State.countDown_x : (s.countDown).x = s.x := rfl
@[simp] theorem State.countDown_brt : (s.countDown).brt = s.brt := rfl
@[simp] theorem State.countDown_order : (s.countDown).order = s.order := rfl
@[simp] theorem State.countDown_freq : (s.countDown).freq = s.freq := rfl
@[simp] theorem State.countDown_fsm : (s.countDown).fsm = s.fsm := rfl
@[simp] theorem State.countDown_gapCnt : (s.countDown).gapCnt = s.gapCnt - 1 := rfl
@[simp] theorem State.countDown_tx : (s.countDown).tx = s.tx := rfl
@[simp] theorem State.countDown_pending : (s.countDown).pending = s.pending := rfl
@[simp] theorem State.countDown_rsp : (s.countDown).rsp = s.rsp := rfl
@[simp] theorem State.countDown_rst : (s.countDown).rst = s.rst := rfl
@[simp] theorem State.countDown_offered : (s.countDown).offered = s.offered := rfl
@[simp] theorem State.countDown_inputs : (s.countDown).inputs = s.inputs := rfl
@[simp] theorem State.countDown_now : (s.countDown).now = s.now + 1 := rfl
@[simp] theorem State.countDown_trace : (s.countDown).trace = s.trace := rfl
@[simp] theorem State.countDown_taken : (s.countDown).taken = s.taken := rfl
@[simp] theorem State.countDown_build : (s.countDown).build = s.build := rfl

@[simp] theorem State.assertReset_x : (s.assertReset).x = s.x := rfl
@[simp] theorem State.assertReset_brt : (s.assertReset).brt = s.brt := rfl
@[simp] theorem State.assertReset_order : (s.assertReset).order = s.order := rfl
@[simp] theorem State.assertReset_freq : (s.assertReset).freq = s.freq := rfl
@[simp] theorem State.assertReset_fsm : (s.assertReset).fsm = .closed := rfl
@[simp] theorem State.assertReset_gapCnt : (s.assertReset).gapCnt = s.gapCnt := rfl
@[simp] theorem State.assertReset_tx : (s.assertReset).tx = none := rfl
@[simp] theorem State.assertReset_pending : (s.assertReset).pending = none := rfl
@[simp] theorem State.assertReset_rsp : (s.assertReset).rsp = [] := rfl
@[simp] theorem State.assertReset_rst : (s.assertReset).rst = true := rfl
@[simp] theorem State.assertReset_offered : (s.assertReset).offered = s.offered := rfl
@[simp] theorem State.assertReset_inputs : (s.assertReset).inputs = s.inputs := rfl
@[simp] theorem State.assertReset_now : (s.assertReset).now = s.now := rfl
@[simp] theorem State.assertReset_trace : (s.assertReset).trace = s.trace := rfl
@[simp] theorem State.assertReset_taken : (s.assertReset).taken = s.taken := rfl
@[simp] theorem State.assertReset_build : (s.assertReset).build = s.build := rfl

end Sys2Proof.Machine
end

