-- ==== Sys2Proof/Laws/Ops.lean ====
section
/-! SUPPORT. What each shared operation can do, said once: acceptance, the operands, the transport's answer, one input,
the command in progress, and the step. -/

namespace Sys2Proof.Machine

/-! Acceptance. -/

theorem State.ready_iff (s : State) :
    s.ready = true ↔ s.rst = false ∧ (s.fsm = .idle ∨ s.fsm = .closed) ∧ s.pending = none ∧ s.rsp = [] := by
  simp [State.ready, and_assoc]

theorem State.ready_rsp {s : State} (h : s.ready = true) : s.rsp = [] := ((State.ready_iff s).1 h).2.2.2

theorem State.ready_pending {s : State} (h : s.ready = true) : s.pending = none := ((State.ready_iff s).1 h).2.2.1

theorem State.ready_rst {s : State} (h : s.ready = true) : s.rst = false := ((State.ready_iff s).1 h).1

theorem State.accept_idle {s : State} (k : State → State) (h : s.ready = true) (hi : s.fsm = .idle) :
    s.accept k = .next (k s) := by
  simp [State.accept, h, hi]

theorem State.accept_closed {s : State} (k : State → State) (h : s.ready = true) (hc : s.fsm = .closed) :
    s.accept k = .next (s.raise .transportUnavailable) := by
  simp [State.accept, h, hc]

theorem State.accept_notReady {s : State} (k : State → State) (h : s.ready = false) : s.accept k = .next s := by
  simp [State.accept, h]

/-- Everything an accepted command can do: wait, be turned away in CLOSED, or have its effect in IDLE. -/
theorem State.accept_cases {s t : State} {k : State → State} (h : s.accept k = .next t) :
    (s.ready = false ∧ t = s) ∨
    (s.ready = true ∧ s.fsm = .closed ∧ t = s.raise .transportUnavailable) ∨
    (s.ready = true ∧ s.fsm = .idle ∧ t = k s) := by
  by_cases hr : s.ready = true
  · obtain ⟨-, hi | hc, -, -⟩ := (State.ready_iff s).1 hr
    · rw [State.accept_idle k hr hi] at h
      exact .inr (.inr ⟨hr, hi, (Host.Outcome.next.inj h).symm⟩)
    · rw [State.accept_closed k hr hc] at h
      exact .inr (.inl ⟨hr, hc, (Host.Outcome.next.inj h).symm⟩)
  · rw [State.accept_notReady k (by simpa using hr)] at h
    exact .inl ⟨by simpa using hr, (Host.Outcome.next.inj h).symm⟩

/-! Operands. -/

theorem State.cell_ofNat {s : State} {i : Nat} (h : i < s.x.length) : s.cell i = some i := by
  simp [State.cell, State.count, h]

theorem State.cell_bad {s : State} {index : Int} (h : index < 0 ∨ (s.x.length : Int) ≤ index) : s.cell index = none := by
  unfold State.cell
  rw [if_neg (by unfold State.count; omega)]

theorem State.cell_some {s : State} {index : Int} {i : Nat} (h : s.cell index = some i) :
    i < s.x.length ∧ index = i := by
  unfold State.cell at h
  split at h
  · next hc =>
    unfold State.count at hc
    cases h
    omega
  · cases h

theorem brtOperand_ofNat {n : Nat} (h : n ≤ 256) : brtOperand n = some (BitVec.ofNat 9 n) := by
  unfold brtOperand
  rw [if_pos (by norm_num; omega), BitVec.ofInt_natCast]

theorem brtOperand_bad {b : Int} (h : b < 0 ∨ 256 < b) : brtOperand b = none := by
  unfold brtOperand
  rw [if_neg (by norm_num; omega)]

theorem brtOperand_some {b : Int} {v : BitVec 9} (h : brtOperand b = some v) : v.toNat ≤ 256 := by
  unfold brtOperand at h
  split at h
  · next hc =>
    obtain ⟨n, rfl⟩ := Int.eq_ofNat_of_zero_le hc.1
    cases h
    rw [BitVec.ofInt_natCast, BitVec.toNat_ofNat]
    norm_num at hc
    omega
  · cases h

/-! The transport's answer, one lemma per call it can answer. -/

section Answer
variable {s : State} (ok : Bool)

theorem State.answer_none (h : s.pending = none) : s.answer ok = s := by
  simp [State.answer, h]

theorem State.answer_opening (h : s.pending = some .opening) :
    s.answer ok = { s.log (.answer .opening ok) with fsm := if ok then .idle else .closed, pending := none } := by
  simp [State.answer, h]

theorem State.answer_beginning (h : s.pending = some .beginning) :
    s.answer ok = if ok then (s.log (.answer .beginning ok)).writeFrame
      else (s.log (.answer .beginning ok)).finishShow .transportUnavailable := by
  simp [State.answer, h]

theorem State.answer_writing (h : s.pending = some .writing) :
    s.answer ok = (s.log (.answer .writing ok)).endTransaction ok := by
  simp [State.answer, h]

theorem State.answer_ending {good : Bool} (h : s.pending = some (.ending good)) :
    s.answer ok = (s.log (.answer (.ending good) ok)).finishShow
      (if ok && good then .ok else .transportUnavailable) := by
  simp [State.answer, h]

theorem State.answer_closing (h : s.pending = some .closing) :
    s.answer ok = { s.log (.answer .closing ok) with fsm := .closed, pending := none }.respond .ok 0 := by
  simp [State.answer, h]

end Answer

/-! One tick, one byte, one response. -/

theorem State.tick_cases (s : State) :
    (s.fsm = .gapwait ∧ s.gapCnt ≤ 1 ∧ s.tick = s.countDown.beginTransaction) ∨
    (¬ (s.fsm = .gapwait ∧ s.gapCnt ≤ 1) ∧ s.tick = s.countDown) := by
  unfold State.tick
  by_cases h : s.countDown.fsm = .gapwait ∧ s.countDown.gapCnt = 0
  · simp only [if_pos h]
    change s.fsm = .gapwait ∧ s.gapCnt - 1 = 0 at h
    exact .inl ⟨h.1, by omega, trivial⟩
  · simp only [if_neg h]
    change ¬(s.fsm = .gapwait ∧ s.gapCnt - 1 = 0) at h
    exact .inr ⟨fun h' => h ⟨h'.1, by omega⟩, trivial⟩

theorem State.tick_plain {s : State} (h : ¬ (s.fsm = .gapwait ∧ s.gapCnt ≤ 1)) : s.tick = s.countDown := by
  obtain ⟨h1, h2, -⟩ | ⟨-, h2⟩ := s.tick_cases
  · exact absurd ⟨h1, h2⟩ h
  · exact h2

theorem State.takeByte_cases (s : State) :
    (∃ t, s.pending = some .writing ∧ s.tx = some t ∧
      s.takeByte = { s with tx := some { t with seq := min (t.seq + 1) t.buf.length } }) ∨
    s.takeByte = s := by
  unfold State.takeByte
  split
  · next t hp ht => exact .inl ⟨t, hp, ht, rfl⟩
  · exact .inr rfl

theorem State.takeByte_idle {s : State} (h : s.pending ≠ some .writing) : s.takeByte = s := by
  obtain ⟨t, hp, -⟩ | h' := s.takeByte_cases
  · exact absurd hp h
  · exact h'

theorem State.takeResponse_nil {s : State} (h : s.rsp = []) : s.takeResponse = s := by
  simp [State.takeResponse, h]

theorem State.takeResponse_cons {s : State} {r : RspWord} {rs : List RspWord} (h : s.rsp = r :: rs) :
    s.takeResponse = { s with rsp := rs, taken := s.taken ++ [r] } := by
  simp [State.takeResponse, h]

theorem State.releaseReset_of {s : State} (o : Order) (f : FreqClass) (h : s.rst = true) :
    s.releaseReset o f =
      { s with
        x := List.replicate s.x.length 0#24, brt := 256#9, order := o, freq := f, fsm := .closed,
        gapCnt := s.build.gapTicks, tx := none, rsp := [], rst := false, pending := some .opening,
        trace := s.trace ++ [⟨s.now, .call (.tOpen f)⟩] } := by
  simp [State.releaseReset, h, State.request, State.log, State.count]

theorem State.releaseReset_idle {s : State} (o : Order) (f : FreqClass) (h : s.rst = false) : s.releaseReset o f = s := by
  simp [State.releaseReset, h]

/-! The command in progress. -/

@[simp] theorem State.runInputs_nil (s : State) : State.runInputs [] s = s := rfl

theorem State.runInputs_cons {s : State} (e : Input) (es : List Input) (h : s.inCommand = true) :
    State.runInputs (e :: es) s = State.runInputs es ({ s with inputs := es }.react e) := by
  simp [State.runInputs, h]

theorem State.runInputs_done {s : State} (es : List Input) (h : s.inCommand = false) : State.runInputs es s = s := by
  cases es <;> simp [State.runInputs, h]

/-- Packages the induction over the inputs of a command once: what one input keeps, the whole command keeps. -/
theorem State.runInputs_keeps {P : State → Prop}
    (hreact : ∀ (s : State) (e : Input) (es : List Input), P s → s.inCommand = true → P ({ s with inputs := es }.react e)) :
    ∀ (es : List Input) (s : State), P s → P (State.runInputs es s) := by
  intro es
  induction es with
  | nil => intro s h; exact h
  | cons e es ih =>
    intro s h
    by_cases hc : s.inCommand = true
    · rw [State.runInputs_cons e es hc]
      exact ih _ (hreact s e es h hc)
    · rw [State.runInputs_done (e :: es) (by simpa using hc)]
      exact h

/-- The same where what is kept speaks of the inputs that remain: they are exactly those not yet taken. -/
theorem State.runInputs_keeps_of_inputs {P : State → Prop} {ok : Input → Bool}
    (hreact : ∀ (s : State) (e : Input) (es : List Input), P s → ok e = true → s.inCommand = true →
      P ({ s with inputs := es }.react e)) :
    ∀ (es : List Input) (s : State), (∀ e ∈ es, ok e = true) → P s → P (State.runInputs es s) := by
  intro es
  induction es with
  | nil => intro s _ h; exact h
  | cons e es ih =>
    intro s hok h
    by_cases hc : s.inCommand = true
    · rw [State.runInputs_cons e es hc]
      exact ih _ (fun e' he' => hok e' (List.mem_cons_of_mem _ he')) (hreact s e es h (hok e (List.mem_cons_self ..)) hc)
    · rw [State.runInputs_done (e :: es) (by simpa using hc)]
      exact h

/-! Fetching a word and the step. -/

theorem State.fetch_some {s s' : State} {w : CmdWord} (h : s.fetch = some (w, s')) :
    s.ready = true ∧ ∃ ws, s.offered = w :: ws ∧ s' = { s with offered := ws } := by
  unfold State.fetch at h
  split at h
  · split at h
    · cases h
    · next w' ws ho => cases h; exact ⟨‹_›, ws, ho, rfl⟩
  · cases h

theorem State.fetch_of_ready {s : State} {w : CmdWord} {ws : List CmdWord} (h : s.ready = true) (ho : s.offered = w :: ws) :
    s.fetch = some (w, { s with offered := ws }) := by
  simp [State.fetch, h, ho]

theorem State.fetch_none_of {s : State} (h : s.ready = false ∨ s.offered = []) : s.fetch = none := by
  unfold State.fetch
  obtain h | h := h <;> simp [h]

theorem State.environment_nil {s : State} (h : s.inputs = []) : s.environment = s.tick := by
  simp [State.environment, h]

theorem State.environment_cons {s : State} {e : Input} {es : List Input} (h : s.inputs = e :: es) :
    s.environment = { s with inputs := es }.react e := by
  simp [State.environment, h]

theorem step_of_fetch_none {s : State} (h : s.fetch = none) : step s = .next s.environment := by
  simp [step, h]

/-- Everything a step can do: run the word it accepts, answer an illegal word, or let the environment move. -/
theorem step_cases {s t : State} (h : step s = .next t) :
    (∃ w ws i, s.ready = true ∧ s.offered = w :: ws ∧ decode w = .ok i ∧ exec i { s with offered := ws } = .next t) ∨
    (∃ w ws e, s.ready = true ∧ s.offered = w :: ws ∧ decode w = .error e ∧
      t = State.rejectWord { s with offered := ws }) ∨
    (s.fetch = none ∧ t = s.environment) := by
  unfold step at h
  split at h
  · next hf => exact .inr (.inr ⟨hf, (Host.Outcome.next.inj h).symm⟩)
  · next w s' hf =>
    obtain ⟨hr, ws, ho, rfl⟩ := State.fetch_some hf
    split at h
    · next i hi => exact .inl ⟨w, ws, i, hr, ho, hi, h⟩
    · next e he => exact .inr (.inl ⟨w, ws, e, hr, ho, he, (Host.Outcome.next.inj h).symm⟩)

/-- Everything a command can do: wait, be turned away in CLOSED, or have its effect in IDLE. -/
theorem exec_cases {i : Instr} {s t : State} (h : exec i s = .next t) :
    (s.ready = false ∧ t = s) ∨
    (s.ready = true ∧ s.fsm = .closed ∧ t = s.raise .transportUnavailable) ∨
    (s.ready = true ∧ s.fsm = .idle) := by
  cases i <;> unfold exec at h
  case setPixel => obtain h | h | ⟨h1, h2, -⟩ := State.accept_cases h <;> tauto
  case setPixelRgb => obtain h | h | ⟨h1, h2, -⟩ := State.accept_cases h <;> tauto
  case getPixel => obtain h | h | ⟨h1, h2, -⟩ := State.accept_cases h <;> tauto
  case getPixelColor => obtain h | h | ⟨h1, h2, -⟩ := State.accept_cases h <;> tauto
  case getPixels => obtain h | h | ⟨h1, h2, -⟩ := State.accept_cases h <;> tauto
  case count => obtain h | h | ⟨h1, h2, -⟩ := State.accept_cases h <;> tauto
  case setBrightness => obtain h | h | ⟨h1, h2, -⟩ := State.accept_cases h <;> tauto
  case showFrame => obtain h | h | ⟨h1, h2, -⟩ := State.accept_cases h <;> tauto
  case close => obtain h | h | ⟨h1, h2, -⟩ := State.accept_cases h <;> tauto

end Sys2Proof.Machine
end

