-- ==== Sys2Proof/Laws/Commands.lean ====
section
/-! SUPPORT. Response words as numbers, and each command as the effect that acceptance guards. -/

namespace Sys2Proof.Machine

/-! Response words (R63). -/

theorem responseWord_toNat (st : Status) (d : BitVec 24) :
    (responseWord st d).toNat = (statusCode st).toNat * 2 ^ 28 + d.toNat := by
  have h : (responseWord st d).toNat = ((statusCode st).toNat * 2 ^ 4 + (0 : BitVec 4).toNat) * 2 ^ 24 + d.toNat := by
    rw [← toNat_append_eq, ← toNat_append_eq]; rfl
  have h0 : (0 : BitVec 4).toNat = 0 := rfl
  rw [h, h0]; omega

theorem responseWord_ok (d : BitVec 24) : responseWord .ok d = d.setWidth 32 := by
  apply BitVec.eq_of_toNat_eq
  rw [responseWord_toNat, BitVec.toNat_setWidth]
  have := d.isLt
  have h0 : (statusCode .ok).toNat = 0 := rfl
  omega

theorem statusField_responseWord (st : Status) (d : BitVec 24) : statusField (responseWord st d) = statusCode st := by
  apply BitVec.eq_of_toNat_eq
  have := d.isLt; have := (statusCode st).isLt
  rw [statusField, BitVec.extractLsb'_toNat, responseWord_toNat, Nat.shiftRight_eq_div_pow]; omega

theorem dataField_responseWord (st : Status) (d : BitVec 24) : dataField (responseWord st d) = d := by
  apply BitVec.eq_of_toNat_eq
  have := d.isLt
  rw [dataField, BitVec.extractLsb'_toNat, responseWord_toNat, Nat.shiftRight_eq_div_pow]; omega

theorem reservedField_responseWord (st : Status) (d : BitVec 24) :
    (responseWord st d).extractLsb' 24 4 = 0#4 := by
  apply BitVec.eq_of_toNat_eq
  have := d.isLt
  rw [BitVec.extractLsb'_toNat, responseWord_toNat, Nat.shiftRight_eq_div_pow, BitVec.toNat_ofNat]; omega

/-- The response to a command whose predecessor's responses have all been taken. -/
theorem State.respond_of_empty {s : State} (h : s.rsp = []) (st : Status) (d : BitVec 24) :
    s.respond st d = { s with rsp := [responseWord st d] } := by
  simp [State.respond, h]

theorem State.raise_of_empty {s : State} (h : s.rsp = []) (e : Status) :
    s.raise e = { s with rsp := [responseWord e 0] } := by
  simp [State.raise, State.respond, h]

/-! Each command is its effect, guarded by acceptance (R97 to R104, R112). -/

theorem exec_setPixel (index : Int) (color : Color) (s : State) :
    exec (.setPixel index color) s = s.accept fun s =>
      match s.cell index with
      | none => s.raise .indexError
      | some i => (s.writePixel i color).respond .ok 0 := rfl

theorem exec_setPixelRgb (index r g b : Int) (s : State) :
    exec (.setPixelRgb index r g b) s = s.accept fun s =>
      match s.cell index, pack r g b with
      | some i, some color => (s.writePixel i color).respond .ok 0
      | none, some _ => s.raise .indexError
      | some _, none => s.raise .rangeError
      | none, none => s.raise s.bothErrors := rfl

theorem exec_getPixel (index : Int) (s : State) :
    exec (.getPixel index) s = s.accept fun s =>
      match s.cell index with
      | none => s.raise .indexError
      | some i => s.respond .ok (s.readPixel i) := rfl

theorem exec_getPixelColor (index : Int) (s : State) :
    exec (.getPixelColor index) s = s.accept fun s =>
      match s.cell index with
      | none => s.raise .indexError
      | some i => s.respond .ok (colorOf (unpack (s.readPixel i))) := rfl

theorem exec_getPixels (s : State) : exec .getPixels s = s.accept fun s => s.respondAll s.x := rfl

theorem exec_count (s : State) : exec .count s = s.accept fun s => s.respond .ok (BitVec.ofNat 24 s.count) := rfl

theorem exec_setBrightness (brt : Int) (s : State) :
    exec (.setBrightness brt) s = s.accept fun s =>
      match brtOperand brt with
      | none => s.raise .rangeError
      | some v => (s.writeBrt v).respond .ok 0 := rfl

theorem exec_showFrame (s : State) : exec .showFrame s = s.accept fun s => s.startShow.complete := rfl

theorem exec_close (s : State) : exec .close s = s.accept fun s => (s.request .closing .tClose).complete := rfl

/-- What a pixel or brightness command that is accepted in IDLE does: it writes at most x or BRT and sends responses. -/
theorem pixelCommand_effect {i : Instr} {s t : State} (hs : i ≠ .showFrame) (hc : i ≠ .close) (h : exec i s = .next t) :
    t = { s with x := t.x, brt := t.brt, rsp := t.rsp } := by
  obtain ⟨-, rfl⟩ | ⟨-, -, rfl⟩ | ⟨hr, hi⟩ := exec_cases h
  · rfl
  · rfl
  · cases i with
    | setPixel index color =>
      rw [exec_setPixel, State.accept_idle _ hr hi] at h
      cases Host.Outcome.next.inj h
      cases s.cell index <;> rfl
    | setPixelRgb index r g b =>
      rw [exec_setPixelRgb, State.accept_idle _ hr hi] at h
      cases Host.Outcome.next.inj h
      cases s.cell index <;> cases pack r g b <;> rfl
    | getPixel index =>
      rw [exec_getPixel, State.accept_idle _ hr hi] at h
      cases Host.Outcome.next.inj h
      cases s.cell index <;> rfl
    | getPixelColor index =>
      rw [exec_getPixelColor, State.accept_idle _ hr hi] at h
      cases Host.Outcome.next.inj h
      cases s.cell index <;> rfl
    | getPixels =>
      rw [exec_getPixels, State.accept_idle _ hr hi] at h
      cases Host.Outcome.next.inj h
      rfl
    | count =>
      rw [exec_count, State.accept_idle _ hr hi] at h
      cases Host.Outcome.next.inj h
      rfl
    | setBrightness brt =>
      rw [exec_setBrightness, State.accept_idle _ hr hi] at h
      cases Host.Outcome.next.inj h
      cases brtOperand brt <;> rfl
    | showFrame => exact absurd rfl hs
    | close => exact absurd rfl hc

end Sys2Proof.Machine
end

