-- ==== Sys2Proof/Laws/Keeps.lean ====
section
/-! SUPPORT. The package for invariants: what every shared operation keeps, every command, every step and every run keeps.
An invariant is then one small goal per operation. -/

namespace Sys2Proof.Machine

/-- A predicate that every operation of the machine keeps, in the circumstances in which the machine uses it. -/
structure Kept (P : State → Prop) : Prop where
  inputs : ∀ (s : State) (es : List Input), P s → P { s with inputs := es }
  offered : ∀ (s : State) (ws : List CmdWord), P s → P { s with offered := ws }
  react : ∀ (s : State) (e : Input), P s → P (s.react e)
  raise : ∀ (s : State) (e : Status), P s → s.ready = true → e ≠ .ok → P (s.raise e)
  respond : ∀ (s : State) (d : BitVec 24), P s → s.ready = true → s.fsm = .idle → P (s.respond .ok d)
  respondAll : ∀ (s : State) (vs : List Color), P s → s.ready = true → s.fsm = .idle → P (s.respondAll vs)
  writePixel : ∀ (s : State) (i : Nat) (v : Color), P s → s.ready = true → s.fsm = .idle → i < s.x.length →
    P (s.writePixel i v)
  writeBrt : ∀ (s : State) (v : BitVec 9), P s → s.ready = true → s.fsm = .idle → v.toNat ≤ 256 → P (s.writeBrt v)
  startShow : ∀ s : State, P s → s.ready = true → s.fsm = .idle → P s.startShow
  closing : ∀ s : State, P s → s.ready = true → s.fsm = .idle → P (s.request .closing .tClose)

variable {P : State → Prop}

theorem Kept.complete (h : Kept P) {s : State} (hs : P s) : P s.complete :=
  State.runInputs_keeps (fun s e es hs _ => h.react _ e (h.inputs s es hs)) s.inputs s hs

theorem Kept.exec (h : Kept P) {i : Instr} {s t : State} (hs : P s) (he : exec i s = .next t) : P t := by
  obtain ⟨-, rfl⟩ | ⟨hr, -, rfl⟩ | ⟨hr, hi⟩ := exec_cases he
  · exact hs
  · exact h.raise s _ hs hr (by decide)
  · cases i with
    | setPixel index color =>
      rw [exec_setPixel, State.accept_idle _ hr hi] at he
      cases Host.Outcome.next.inj he
      cases hc : s.cell index with
      | none => exact h.raise s _ hs hr (by decide)
      | some i => exact h.respond _ _ (h.writePixel s i color hs hr hi (State.cell_some hc).1) hr hi
    | setPixelRgb index r g b =>
      rw [exec_setPixelRgb, State.accept_idle _ hr hi] at he
      cases Host.Outcome.next.inj he
      cases hc : s.cell index with
      | none =>
        cases pack r g b with
        | none => exact h.raise s _ hs hr (by unfold State.bothErrors; cases s.build.errPriority <;> decide)
        | some c => exact h.raise s _ hs hr (by decide)
      | some i =>
        cases pack r g b with
        | none => exact h.raise s _ hs hr (by decide)
        | some c => exact h.respond _ _ (h.writePixel s i c hs hr hi (State.cell_some hc).1) hr hi
    | getPixel index =>
      rw [exec_getPixel, State.accept_idle _ hr hi] at he
      cases Host.Outcome.next.inj he
      cases s.cell index with
      | none => exact h.raise s _ hs hr (by decide)
      | some i => exact h.respond s _ hs hr hi
    | getPixelColor index =>
      rw [exec_getPixelColor, State.accept_idle _ hr hi] at he
      cases Host.Outcome.next.inj he
      cases s.cell index with
      | none => exact h.raise s _ hs hr (by decide)
      | some i => exact h.respond s _ hs hr hi
    | getPixels =>
      rw [exec_getPixels, State.accept_idle _ hr hi] at he
      cases Host.Outcome.next.inj he
      exact h.respondAll s _ hs hr hi
    | count =>
      rw [exec_count, State.accept_idle _ hr hi] at he
      cases Host.Outcome.next.inj he
      exact h.respond s _ hs hr hi
    | setBrightness brt =>
      rw [exec_setBrightness, State.accept_idle _ hr hi] at he
      cases Host.Outcome.next.inj he
      cases hb : brtOperand brt with
      | none => exact h.raise s _ hs hr (by decide)
      | some v => exact h.respond _ _ (h.writeBrt s v hs hr hi (brtOperand_some hb)) hr hi
    | showFrame =>
      rw [exec_showFrame, State.accept_idle _ hr hi] at he
      cases Host.Outcome.next.inj he
      exact h.complete (h.startShow s hs hr hi)
    | close =>
      rw [exec_close, State.accept_idle _ hr hi] at he
      cases Host.Outcome.next.inj he
      exact h.complete (h.closing s hs hr hi)

theorem Kept.environment (h : Kept P) {s : State} (hs : P s) : P s.environment := by
  cases hin : s.inputs with
  | nil => rw [State.environment_nil hin]; exact h.react s .tick hs
  | cons e es => rw [State.environment_cons hin]; exact h.react _ e (h.inputs s es hs)

theorem Kept.step (h : Kept P) {s t : State} (hs : P s) (ht : step s = .next t) : P t := by
  obtain ⟨w, ws, i, -, -, -, he⟩ | ⟨w, ws, e, hr, -, -, rfl⟩ | ⟨-, rfl⟩ := step_cases ht
  · exact h.exec (h.offered s ws hs) he
  · exact h.raise _ _ (h.offered s ws hs) hr (by decide)
  · exact h.environment hs

/-- What every step keeps, every run keeps. -/
theorem run_keeps (h : ∀ s t : State, P s → step s = .next t → P t) :
    ∀ (n : Nat) {s t : State}, P s → Sys2Proof.core.run n s = .next t → P t := by
  intro n
  induction n with
  | zero =>
    intro s t hs hr
    cases Host.Outcome.next.inj hr
    exact hs
  | succ n ih =>
    intro s t hs hr
    cases hst : step s with
    | next u =>
      simp only [Host.Core.run, Sys2Proof.core, hst] at hr
      exact ih (h s u hs hst) hr
    | fault r => exact nomatch r
    | refused r =>
      simp only [Host.Core.run, Sys2Proof.core, hst] at hr
      cases hr

end Sys2Proof.Machine
end

