-- ==== Sys2Proof/Laws/PerInstr.lean ====
section
/-! SUPPORT. Families of statements with one lemma per instruction. -/

namespace Sys2Proof.Laws

/-- R55, R56: the `op` field of an instruction's word is the code of its operation, and the code maps back to it. -/
def OpOfWord.Statement (i : Instr) : Prop :=
  opField (encode i) = opcodeWord (opcode i) ∧ opcodeOf (opField (encode i)) = some (opcode i)

theorem OpOfWord.setPixel (index : Int) (color : Color) : OpOfWord.Statement (.setPixel index color) := by
  simp [OpOfWord.Statement, encode, opcodeOf_opcodeWord]
theorem OpOfWord.setPixelRgb (index r g b : Int) : OpOfWord.Statement (.setPixelRgb index r g b) := by
  simp [OpOfWord.Statement, encode, opcodeOf_opcodeWord]
theorem OpOfWord.getPixel (index : Int) : OpOfWord.Statement (.getPixel index) := by
  simp [OpOfWord.Statement, encode, opcodeOf_opcodeWord]
theorem OpOfWord.getPixelColor (index : Int) : OpOfWord.Statement (.getPixelColor index) := by
  simp [OpOfWord.Statement, encode, opcodeOf_opcodeWord]
theorem OpOfWord.getPixels : OpOfWord.Statement .getPixels := by
  simp [OpOfWord.Statement, encode, opcodeOf_opcodeWord]
theorem OpOfWord.count : OpOfWord.Statement .count := by
  simp [OpOfWord.Statement, encode, opcodeOf_opcodeWord]
theorem OpOfWord.setBrightness (brt : Int) : OpOfWord.Statement (.setBrightness brt) := by
  simp [OpOfWord.Statement, encode, opcodeOf_opcodeWord]
theorem OpOfWord.showFrame : OpOfWord.Statement .showFrame := by
  simp [OpOfWord.Statement, encode, opcodeOf_opcodeWord]
theorem OpOfWord.close : OpOfWord.Statement .close := by
  simp [OpOfWord.Statement, encode, opcodeOf_opcodeWord]

end Sys2Proof.Laws
end

