-- ==== Sys2Proof/Laws/Show.lean ====
section
/-! SUPPORT. A command in progress while the environment answers nothing: what a stretch of quiet inputs does to a SHOW or a
CLOSE, and the tick that ends the gap wait. -/

namespace Sys2Proof.Machine

theorem ticksOf_append (a b : List Input) : ticksOf (a ++ b) = ticksOf a + ticksOf b := by
  induction a with
  | nil => simp [ticksOf]
  | cons e a ih => cases e <;> simp [ticksOf, ih]; omega

theorem wordsOf_append (a b : List Input) : wordsOf (a ++ b) = wordsOf a ++ wordsOf b := by
  induction a with
  | nil => simp [wordsOf]
  | cons e a ih => cases e <;> simp [wordsOf, ih]

/-- A list of inputs with enough ticks has its g-th tick. -/
theorem split_at_tick {q : List Input} {g : Nat} (h0 : 0 < g) (h : g ≤ ticksOf q) :
    ∃ qa qb, q = qa ++ .tick :: qb ∧ ticksOf qa + 1 = g := by
  induction q generalizing g with
  | nil => simp [ticksOf] at h; omega
  | cons e q ih =>
    by_cases he : e = .tick
    · subst he
      by_cases h1 : g = 1
      · exact ⟨[], q, rfl, by simp [ticksOf, h1]⟩
      · obtain ⟨qa, qb, hq, ht⟩ := ih (g := g - 1) (by omega) (by simp [ticksOf] at h; omega)
        exact ⟨.tick :: qa, qb, by rw [hq]; rfl, by simp [ticksOf]; omega⟩
    · have hne : ticksOf (e :: q) = ticksOf q := by cases e <;> simp_all [ticksOf]
      obtain ⟨qa, qb, hq, ht⟩ := ih h0 (by omega)
      refine ⟨e :: qa, qb, by rw [hq]; rfl, ?_⟩
      have : ticksOf (e :: qa) = ticksOf qa := by cases e <;> simp_all [ticksOf]
      omega

/-- What passes while the environment is quiet: ticks, and words offered; `es` is what is left of the inputs. -/
def State.pass (s : State) (q es : List Input) (tx : Option Transmit) : State :=
  { s with gapCnt := s.gapCnt - ticksOf q, now := s.now + ticksOf q, offered := s.offered ++ wordsOf q, inputs := es,
           tx := tx }

theorem State.pass_pass (s : State) (a b es es' : List Input) (tx tx' : Option Transmit) :
    (s.pass a es tx).pass b es' tx' = s.pass (a ++ b) es' tx' := by
  simp [State.pass, ticksOf_append, wordsOf_append, Nat.sub_sub, Nat.add_assoc, List.append_assoc]

/-- One quiet input that does not end a gap wait: time passes or a word is offered; during T_WRITE the transport may take a
byte, which moves SEQ but not the buffer. -/
theorem State.react_quiet {s : State} {e : Input} (he : e.quiet = true) (hrsp : s.rsp = [])
    (hgap : s.fsm = .gapwait → ticksOf [e] < s.gapCnt) :
    ∃ tx, (s.pending ≠ some .writing → tx = s.tx) ∧ tx.map (·.buf) = s.tx.map (·.buf) ∧
      s.react e = s.pass [e] s.inputs tx := by
  cases e with
  | tick =>
    have hplain : ¬ (s.fsm = .gapwait ∧ s.gapCnt ≤ 1) := by
      rintro ⟨h1, h2⟩
      have := hgap h1
      simp only [ticksOf] at this
      omega
    exact ⟨s.tx, fun _ => rfl, rfl, (State.tick_plain hplain).trans (by simp [State.pass, State.countDown, ticksOf, wordsOf])⟩
  | takeByte =>
    obtain ⟨t, hp, ht, hb⟩ | hb := s.takeByte_cases
    · exact ⟨some ⟨t.buf, min (t.seq + 1) t.buf.length⟩, fun h => absurd hp h, by rw [ht]; rfl,
        hb.trans (by simp [State.pass, ticksOf, wordsOf])⟩
    · exact ⟨s.tx, fun _ => rfl, rfl, hb.trans (by simp [State.pass, ticksOf, wordsOf])⟩
  | word w => exact ⟨s.tx, fun _ => rfl, rfl, by simp [State.react, State.offer, State.pass, ticksOf, wordsOf]⟩
  | takeResponse =>
    exact ⟨s.tx, fun _ => rfl, rfl, (State.takeResponse_nil hrsp).trans (by simp [State.pass, ticksOf, wordsOf])⟩
  | answer ok => simp [Input.quiet] at he
  | rstAssert => simp [Input.quiet] at he
  | rstRelease o f => simp [Input.quiet] at he

/-- A quiet stretch during a command that does not end a gap wait. -/
theorem State.runInputs_quiet (q : List Input) :
    ∀ (s : State) (es : List Input), (∀ e ∈ q, e.quiet = true) → s.inputs = q ++ es → s.inCommand = true → s.rsp = [] →
      (s.fsm = .gapwait → ticksOf q < s.gapCnt) →
      ∃ tx, (s.pending ≠ some .writing → tx = s.tx) ∧ tx.map (·.buf) = s.tx.map (·.buf) ∧
        State.runInputs (q ++ es) s = State.runInputs es (s.pass q es tx) := by
  induction q with
  | nil =>
    intro s es _ hin _ _ _
    refine ⟨s.tx, fun _ => rfl, rfl, ?_⟩
    have : s.pass [] es s.tx = s := by
      simp only [List.nil_append] at hin
      simp [State.pass, ticksOf, wordsOf, ← hin]
    rw [this, List.nil_append]
  | cons e q ih =>
    intro s es hq hin hc hrsp hgap
    have hsum : ticksOf (e :: q) = ticksOf [e] + ticksOf q := by rw [← ticksOf_append]; rfl
    obtain ⟨tx1, h1, h2, h3⟩ := State.react_quiet (s := { s with inputs := q ++ es }) (hq e (List.mem_cons_self ..)) hrsp
      (fun h => by have := hgap h; change _ < s.gapCnt; omega)
    obtain ⟨tx, h4, h5, h6⟩ := ih (({ s with inputs := q ++ es } : State).pass [e] (q ++ es) tx1) es
      (fun e' h' => hq e' (List.mem_cons_of_mem _ h')) rfl hc hrsp
      (fun h => by have := hgap h; change _ < s.gapCnt - ticksOf [e]; omega)
    refine ⟨tx, fun h => (h4 h).trans (h1 h), h5.trans h2, ?_⟩
    rw [List.cons_append, State.runInputs_cons _ _ hc, h3]
    exact h6.trans (congrArg _ (State.pass_pass _ _ _ _ _ _ _))

/-! The inputs that are not taken yet do not matter to what one input does, so a command can be run on them piece by piece. -/

theorem State.react_inputs (s : State) (e : Input) (es : List Input) :
    { s with inputs := es }.react e = { s.react e with inputs := es } := by
  cases e with
  | tick =>
    simp only [State.react, State.tick, State.countDown]
    split <;> rfl
  | answer ok =>
    obtain ⟨x, brt, order, freq, fsm, gapCnt, tx, pending, rsp, rst, offered, inputs, now, trace, taken, build⟩ := s
    cases pending with
    | none => rfl
    | some p => cases p <;> cases ok <;> rfl
  | takeByte =>
    simp only [State.react, State.takeByte]
    split <;> rfl
  | word w => rfl
  | takeResponse =>
    simp only [State.react, State.takeResponse]
    split <;> rfl
  | rstAssert => rfl
  | rstRelease orderI freqI =>
    simp only [State.react, State.releaseReset]
    split <;> rfl

/-- A command on two stretches of inputs: where the first leaves it running it goes on with the second, where it is complete
the second is still to come. -/
theorem State.runInputs_append (a b : List Input) : ∀ s : State,
    let u := State.runInputs a { s with inputs := a }
    State.runInputs (a ++ b) { s with inputs := a ++ b } =
      if u.inCommand = true then State.runInputs b { u with inputs := b } else { u with inputs := u.inputs ++ b } := by
  induction a with
  | nil =>
    intro s u
    change State.runInputs b { s with inputs := b } = _
    split
    · rfl
    · next h => exact State.runInputs_done b (by simpa [u, State.inCommand] using h)
  | cons e a ih =>
    intro s u
    by_cases hc : s.inCommand = true
    · have hu : u = State.runInputs a { s.react e with inputs := a } :=
        (State.runInputs_cons e a (s := { s with inputs := e :: a }) hc).trans
          (congrArg _ (State.react_inputs s e a))
      have hl : State.runInputs (e :: a ++ b) { s with inputs := e :: a ++ b } =
          State.runInputs (a ++ b) { s.react e with inputs := a ++ b } :=
        (State.runInputs_cons e (a ++ b) (s := { s with inputs := e :: a ++ b }) hc).trans
          (congrArg _ (State.react_inputs s e (a ++ b)))
      rw [hl, hu]
      exact ih (s.react e)
    · have hn : s.inCommand = false := by simpa using hc
      have hu : u = { s with inputs := e :: a } := State.runInputs_done (e :: a) (s := { s with inputs := e :: a }) hn
      rw [hu, if_neg (by simpa [State.inCommand] using hn)]
      exact State.runInputs_done (e :: a ++ b) (s := { s with inputs := e :: a ++ b }) hn

end Sys2Proof.Machine
end

