-- ==== Sys2Proof/Tests/Slice0.lean ====
section
/-! SUPPORT. Tests.  Every expected result is copied from the spec's own vectors (spec/95_test_vectors.md, sections 1 to 3),
named in the comment above the test; and for every statement with hypotheses a witness that meets them. -/

namespace Sys2Proof.Machine.Tests

/-! ### States -/

/-- 2.7: N = 3, x = [0x000000, 0x123456, 0xFF8000], BRT = 256, IDLE, INDEX_FIRST. -/
def base : State :=
  { State.construct Config.build 3 .grb .k800 with x := [0x000000#24, 0x123456#24, 0xFF8000#24] }

/-- 2.8: N = 1, GRB, BRT = 256, black, IDLE, GAP_CNT = 0; `es` is what the environment does. -/
def one (es : List Input) : State :=
  { State.construct Config.build 1 .grb .k800 with gapCnt := 0, inputs := es }

/-- `base` with a word offered. -/
def offering (w : CmdWord) : State := { base with offered := [w] }

/-- The next state, if there is one. -/
def after : Host.Outcome State Fault Refusal → Option State
  | .next s => some s
  | .fault _ => none
  | .refused _ => none

/-- The responses after one step. -/
def rspAfter (s : State) : Option (List RspWord) := (after (step s)).map (·.rsp)

/-- The transport events of a state without their ticks, after the T_OPEN pair of the reset. -/
def events (s : State) : List TransportEvent := (s.trace.drop 2).map (·.event)

/-- An instruction read from a word, if the word is legal. -/
def instrOf (w : CmdWord) : Option Instr := (decode w).toOption

/-- 24 zero pulses. -/
def zeros24 : List Byte := List.replicate 24 0xE0#8

/-! ### WellFormed: an ill-formed term for each check -/

theorem test_wf_setPixel_index_high : (Instr.setPixel 32768 0).wf = false := by decide
theorem test_wf_setPixel_index_low : (Instr.setPixel (-32769) 0).wf = false := by decide
theorem test_wf_setPixelRgb_index : (Instr.setPixelRgb 32768 0 0 0).wf = false := by decide
theorem test_wf_setPixelRgb_red : (Instr.setPixelRgb 0 2048 0 0).wf = false := by decide
theorem test_wf_setPixelRgb_green : (Instr.setPixelRgb 0 0 (-2049) 0).wf = false := by decide
theorem test_wf_setPixelRgb_blue : (Instr.setPixelRgb 0 0 0 2048).wf = false := by decide
theorem test_wf_getPixel_index : (Instr.getPixel (-32769)).wf = false := by decide
theorem test_wf_getPixelColor_index : (Instr.getPixelColor 32768).wf = false := by decide
theorem test_wf_setBrightness : (Instr.setBrightness 32768).wf = false := by decide

/-! ### Decode: the words of 2.6, and the illegal words of 2.6 -/

theorem test_decode_setPixel : instrOf 0x0100020000FF8000#64 = some (.setPixel 2 0xFF8000#24) := by decide
theorem test_decode_setPixelRgb : instrOf 0x020001000A01401E#64 = some (.setPixelRgb 1 10 20 30) := by decide
theorem test_decode_setPixelRgb_signs : instrOf 0x0200000FFF000000#64 = some (.setPixelRgb 0 (-1) 0 0) := by decide
theorem test_decode_getPixel : instrOf 0x03FFFF0000000000#64 = some (.getPixel (-1)) := by decide
theorem test_decode_getPixelColor : instrOf 0x0400000000000000#64 = some (.getPixelColor 0) := by decide
theorem test_decode_getPixels : instrOf 0x0500000000000000#64 = some .getPixels := by decide
theorem test_decode_count : instrOf 0x0600000000000000#64 = some .count := by decide
theorem test_decode_setBrightness : instrOf 0x0700000000000101#64 = some (.setBrightness 257) := by decide
theorem test_decode_show : instrOf 0x0800000000000000#64 = some .showFrame := by decide
theorem test_decode_close : instrOf 0x0900000000000000#64 = some .close := by decide
theorem test_decode_illegal :
    [0x0000000000000000#64, 0x0A00000000000000#64, 0xFFFFFFFFFFFFFFFF#64, 0x0600000000000001#64, 0x0800010000000000#64,
     0x01000200010000FF#64, 0x0200001000000000#64, 0x0300000000000001#64, 0x0700010000000080#64,
     0x0700000000010000#64].map instrOf = List.replicate 10 none := by decide
theorem test_decodeTableWord : decodeTableWord 64 0x0200030001002003 = some (.setPixelRgb 3 1 2 3) := by decide
theorem test_encode_setPixelRgb : encode (.setPixelRgb (-1) 300 0 0) = 0x02FFFF012C000000#64 := by decide
theorem test_encode_setPixel : encode (.setPixel 0 0xFF8001#24) = 0x0100000000FF8001#64 := by decide
theorem test_encode_setBrightness : encode (.setBrightness (-1)) = 0x070000000000FFFF#64 := by decide

/-! ### The datapath: 2.1, 2.3, 2.4, 2.5 -/

theorem test_encodeByte : encodeByte Config.build 0x92#8 =
    [0xF8#8, 0xE0#8, 0xE0#8, 0xF8#8, 0xE0#8, 0xE0#8, 0xF8#8, 0xE0#8] := by decide
theorem test_encOut : encOut Config.build 0x01#8 = 0xE0E0E0E0E0E0E0F8#64 := by decide
theorem test_pack : pack 255 128 0 = some 0xFF8000#24 := by decide
theorem test_pack_range : pack 255 255 256 = none := by decide
theorem test_scale : scale 0xFF8001#24 128#9 = ⟨127#8, 64#8, 0#8⟩ := by decide
theorem test_scale_255 : scale 0x123456#24 255#9 = ⟨17#8, 51#8, 85#8⟩ := by decide
theorem test_encodePixel_grb : encodePixel Config.build ⟨1#8, 2#8, 3#8⟩ .grb =
    [0xE0#8, 0xE0#8, 0xE0#8, 0xE0#8, 0xE0#8, 0xE0#8, 0xF8#8, 0xE0#8, 0xE0#8, 0xE0#8, 0xE0#8, 0xE0#8, 0xE0#8, 0xE0#8, 0xE0#8,
     0xF8#8, 0xE0#8, 0xE0#8, 0xE0#8, 0xE0#8, 0xE0#8, 0xE0#8, 0xF8#8, 0xF8#8] := by decide
theorem test_encodeFrame : encodeFrame Config.build [0x123456#24] .grb 255#9 =
    [0xE0#8, 0xE0#8, 0xF8#8, 0xF8#8, 0xE0#8, 0xE0#8, 0xF8#8, 0xF8#8, 0xE0#8, 0xE0#8, 0xE0#8, 0xF8#8, 0xE0#8, 0xE0#8, 0xE0#8,
     0xF8#8, 0xE0#8, 0xF8#8, 0xE0#8, 0xF8#8, 0xE0#8, 0xF8#8, 0xE0#8, 0xF8#8] := by decide

/-! ### One step: 2.7 -/

theorem test_setPixel : (after (step (offering 0x01000000000000FF#64))).map (fun t => (t.rsp, t.x)) =
    some ([0x00000000#32], [0x0000FF#24, 0x123456#24, 0xFF8000#24]) := by decide
theorem test_setPixel_index : rspAfter (offering 0x0100030000000001#64) = some [0x20000000#32] := by decide
theorem test_setPixelRgb : (after (step (offering 0x02000000FF080000#64))).map (fun t => (t.rsp, t.x)) =
    some ([0x00000000#32], [0xFF8000#24, 0x123456#24, 0xFF8000#24]) := by decide
theorem test_setPixelRgb_both : rspAfter (offering 0x02FFFF012C000000#64) = some [0x20000000#32] := by decide
theorem test_getPixel : rspAfter (offering 0x0300010000000000#64) = some [0x00123456#32] := by decide
theorem test_getPixel_negative : rspAfter (offering 0x03FFFF0000000000#64) = some [0x20000000#32] := by decide
theorem test_getPixelColor : rspAfter (offering 0x0400020000000000#64) = some [0x00FF8000#32] := by decide
theorem test_getPixels : rspAfter (offering 0x0500000000000000#64) =
    some [0x00000000#32, 0x00123456#32, 0x00FF8000#32] := by decide
theorem test_count : rspAfter (offering 0x0600000000000000#64) = some [0x00000003#32] := by decide
theorem test_setBrightness : (after (step (offering 0x0700000000000080#64))).map (fun t => (t.rsp, t.brt)) =
    some ([0x00000000#32], 128#9) := by decide
theorem test_setBrightness_range : (after (step (offering 0x0700000000000101#64))).map (fun t => (t.rsp, t.brt)) =
    some ([0x10000000#32], 256#9) := by decide
theorem test_illegalWord : rspAfter (offering 0x0600000000000001#64) = some [0xF0000000#32] := by decide
theorem test_closed_getPixel : rspAfter { offering 0x0300030000000000#64 with fsm := .closed } =
    some [0x30000000#32] := by decide
theorem test_closed_illegal : rspAfter { offering 0x0A00000000000000#64 with fsm := .closed } =
    some [0xF0000000#32] := by decide

/-- 2.7, the row CLOSE. -/
theorem test_close : (after (exec .close { base with inputs := [.answer false] })).map (fun t => (t.rsp, t.fsm, events t)) =
    some ([0x00000000#32], .closed, [.call .tClose, .answer .closing false]) := by decide

/-- 2.8, first row. -/
theorem test_show : (after (exec .showFrame (one [.answer true, .answer true, .answer true]))).map
      (fun t => (t.rsp, t.fsm, t.gapCnt, events t)) =
    some ([0x00000000#32], .idle, 5, [.call .tBegin, .answer .beginning true, .call (.tWrite zeros24), .answer .writing true,
      .call .tEnd, .answer (.ending true) true]) := by decide

/-- 2.8, third row. -/
theorem test_show_writeFails : (after (exec .showFrame (one [.answer true, .answer false, .answer true]))).map
      (fun t => (t.rsp, t.fsm, t.gapCnt, t.brt, events t)) =
    some ([0x30000000#32], .idle, 5, 256#9, [.call .tBegin, .answer .beginning true, .call (.tWrite zeros24),
      .answer .writing false, .call .tEnd, .answer (.ending false) true]) := by decide

/-- P4: GAP_TICKS = 5, and SHOW accepted with GAP_CNT = 3 calls T_BEGIN three ticks later. -/
theorem test_gapTicks : Config.build.gapTicks = 5 := by decide
theorem test_show_waits : (after (exec .showFrame { one (List.replicate 9 .tick) with gapCnt := 3, now := 2 })).map
      (fun t => (t.fsm, t.trace.drop 2)) = some (.transmit, [⟨5, .call .tBegin⟩]) := by decide

/-- R143 and P7: a reset whose T_OPEN fails. -/
theorem test_resetSequence_fails :
    (after (Sys2Proof.core.run 3 { base with inputs := [.rstAssert, .rstRelease 1#1 1#1, .answer false] })).map
      (fun t => (t.x, t.fsm, t.order, t.freq, events t)) =
    some ([0#24, 0#24, 0#24], .closed, .rgb, .k400, [.call (.tOpen .k400), .answer .opening false]) := by decide

/-- R145: rst inside T_WRITE: no response, no T_END, and the trace ends in the call without an answer. -/
theorem test_resetInsideFrame : (after (exec .showFrame (one [.answer true, .takeByte, .rstAssert, .answer true]))).map
      (fun t => (t.rsp, t.rst, t.inputs.length, events t)) =
    some ([], true, 1, [.call .tBegin, .answer .beginning true, .call (.tWrite zeros24)]) := by decide

/-- P1 and P7 write the T_OPEN of class K800 as T_OPEN(0), of K400 as T_OPEN(1). -/
theorem test_openArgument : (Call.tOpen .k800).arg = 0#1 ∧ (Call.tOpen .k400).arg = 1#1 := by decide

/-- The word the host places with `withFetchWord` is the one the next step runs. -/
theorem test_withFetchWord : rspAfter (State.reset.withFetchWord 64 0x0600000000000000) = some [0x00000003#32] := by decide

/-! ### Witnesses: for every statement with hypotheses, values that meet all of them together, one clause at a time -/

theorem witness_DecodeOfEncodeIsTheInstruction : (Instr.setPixelRgb (-32768) 2047 (-2048) 0).wf = true := by decide
theorem witness_LegalWordIsItsInstructionsEncoding : decode 0x03FFFF0000000000#64 = .ok (.getPixel (-1)) := by rfl
theorem witness_StepRunsTheDecodedInstruction :
    (offering 0x0600000000000000#64).ready = true ∧ (offering 0x0600000000000000#64).offered = [0x0600000000000000#64] ∧
      decode 0x0600000000000000#64 = .ok .count := ⟨by decide, rfl, rfl⟩
theorem witness_IllegalWordIsAnsweredIllegalCommand :
    (offering 0#64).ready = true ∧ decode 0#64 = .error .reservedOp ∧
      ({ offering 0x0600000000000000#64 with fsm := .closed } : State).ready = true := ⟨by decide, rfl, by decide⟩
theorem witness_CommandWaitsUntilTheCoreIsReady :
    base.ready = true ∧ ({ base with rsp := [0#32] } : State).ready = false := by decide
theorem witness_idle : base.ready = true ∧ base.fsm = .idle ∧ base.x.length = 3 := by decide
/-- SetPixelStoresTheColour, GetPixelReturnsTheStoredColour, ReadAfterWriteGivesTheColourSet: both ends of each range. -/
theorem witness_index_clauses :
    base.ready = true ∧ base.fsm = .idle ∧ 0 < base.x.length ∧ 2 < base.x.length ∧ base.x[0]? = some 0#24 ∧
      base.x[2]? = some 0xFF8000#24 ∧ (-1 : Int) < 0 ∧ (base.x.length : Int) ≤ 3 := by decide
/-- The five clauses of SetPixelRgbStoresOrReportsItsError, each met at the ends of its range. -/
theorem witness_SetPixelRgbStoresOrReportsItsError :
    base.ready = true ∧ base.fsm = .idle ∧ base.build.errPriority = .indexFirst ∧
      ({ base with build := { Config.build with errPriority := .rangeFirst } } : State).ready = true ∧
      ¬ ((2 : Int) < 0 ∨ (base.x.length : Int) ≤ 2) ∧ ((3 : Int) < 0 ∨ (base.x.length : Int) ≤ 3) ∧
      ¬ ((0 : Int) < 0 ∨ (255 : Int) < 0 ∨ (255 : Int) < 255) ∧ ((256 : Int) < 0 ∨ (255 : Int) < 256) ∧
      ((-1 : Int) < 0 ∨ (255 : Int) < -1) := by decide
theorem witness_GetPixelsReturnsTheWholeArray : base.ready = true ∧ base.fsm = .idle ∧
    ({ base with rsp := [0#32] } : State).rsp ≠ [] := by decide
theorem witness_CountReturnsThePixelCount :
    (State.construct Config.build 32767 .grb .k800).ready = true ∧
      (State.construct Config.build 32767 .grb .k800).fsm = .idle ∧
      (State.construct Config.build 32767 .grb .k800).x.length = 32767 := ⟨rfl, rfl, List.length_replicate ..⟩
theorem witness_SetBrightnessWritesBrt : base.ready = true ∧ base.fsm = .idle ∧ (0 : Nat) ≤ 256 ∧ (256 : Nat) ≤ 256 ∧
    ((-1 : Int) < 0 ∨ 256 < (-1 : Int)) ∧ ((257 : Int) < 0 ∨ 256 < (257 : Int)) := by decide
theorem witness_ClosedCoreAnswersTransportUnavailable :
    ({ base with fsm := .closed } : State).ready = true := by decide
/-- The frames of the pixel and brightness commands: each of them answers a next state. -/
theorem witness_frames : ∀ i ∈ [Instr.getPixel 0, .getPixelColor 3, .getPixels, .count, .setPixel 0 1#24,
    .setPixelRgb 0 1 2 3, .setBrightness 0], (after (exec i base)).isSome = true := by decide
theorem witness_RejectedCommandLeavesTheStateUnchanged :
    base.ready = true ∧ (after (exec (.setPixel 3 0#24) base)).map (·.rsp) = some [0x20000000#32] ∧
      (after (exec (.setBrightness 257) base)).map (·.rsp) = some [0x10000000#32] := by decide
theorem witness_SetCommandsAreIdempotent :
    base.ready = true ∧ ∀ i ∈ [Instr.setPixel 0 1#24, .setPixelRgb 3 1 2 3, .setBrightness 0],
      ((after (exec i base)).bind fun t => after (exec i t.takeResponse)).isSome = true := by decide

/-- Enough ticks for the gap of `base`, a word and a byte: an environment that answers nothing. -/
def quietly : List Input := List.replicate 5 .tick ++ [.word 0#64, .takeByte]

theorem witness_ShowTransmitsTheFrame :
    let s : State := { base with inputs := quietly ++ .answer true :: ([.tick] ++ .answer true :: ([] ++ [.answer true])) }
    s.ready = true ∧ s.fsm = .idle ∧ (∀ e ∈ quietly ++ [.tick] ++ [], e.quiet = true) ∧ s.gapCnt ≤ ticksOf quietly := by
  decide
/-- The three cases of ShowFailureEndsTheTransaction, each with the inputs that make it happen and the response it gets. -/
theorem witness_ShowFailureEndsTheTransaction :
    let failBegin : State := { base with inputs := quietly ++ [.answer false] }
    let failWrite : State := { base with inputs := quietly ++ .answer true :: ([.tick] ++ .answer false :: ([] ++ [.answer true])) }
    let failEnd : State := { base with inputs := quietly ++ .answer true :: ([.tick] ++ .answer true :: ([] ++ [.answer false])) }
    (∀ s ∈ [failBegin, failWrite, failEnd], s.ready = true ∧ s.fsm = .idle ∧ s.gapCnt ≤ ticksOf quietly ∧
      (after (exec .showFrame s)).map (·.rsp) = some [0x30000000#32]) ∧
    ∀ e ∈ quietly ++ [.tick] ++ [], e.quiet = true := by decide
theorem witness_ShowWaitsOutTheGap :
    (∀ e ∈ quietly, e.quiet = true) ∧
      ticksOf (List.replicate 4 Input.tick) < ({ base with inputs := List.replicate 4 .tick } : State).gapCnt ∧
      ({ base with inputs := quietly } : State).gapCnt ≤ ticksOf quietly ∧ (one []).gapCnt ≤ ticksOf [] := by decide
theorem witness_ShowLeavesPixelsAndConfigurationAlone :
    (∀ e ∈ [Input.answer false], e.noReset = true) ∧ (after (exec .showFrame (one [.answer false]))).isSome = true ∧
      (after (exec .showFrame (one [.rstAssert]))).map (·.rst) = some true := by decide
theorem witness_CloseClosesTheCore :
    ({ base with inputs := quietly ++ [.answer false] } : State).ready = true ∧ ∀ e ∈ quietly, e.quiet = true := by decide
/-- ResetDiscardsTheCommandInProgress: a SHOW still running in the gap wait, one in T_WRITE, a CLOSE still running, and a
SHOW that is complete. -/
theorem witness_ResetDiscardsTheCommandInProgress :
    (one []).ready = true ∧ (one []).fsm = .idle ∧
    (after (exec .showFrame { base with inputs := [.tick] })).map (·.inCommand) = some true ∧
    (after (exec .showFrame (one [.answer true, .takeByte]))).map (·.inCommand) = some true ∧
    (after (exec .close (one [.tick]))).map (·.inCommand) = some true ∧
    (after (exec .showFrame (one [.answer false]))).map (·.inCommand) = some false ∧
    ∀ e ∈ [Input.tick, .answer true, .takeByte, .answer false], e.noReset = true := by decide
theorem witness_CloseLeavesPixelsAndConfigurationAlone :
    (∀ e ∈ [Input.answer true], e.noReset = true) ∧ (after (exec .close (one [.answer true]))).isSome = true := by decide

theorem witness_build : Config.build.wf = true ∧ 50000 * Config.build.tickDen ≤ 5 * Config.build.tickNum := by decide
theorem witness_datapath_ranges : (0#9).toNat ≤ 256 ∧ (256#9).toNat ≤ 256 ∧ (0#9).toNat ≤ (256#9).toNat ∧
    (0 : Nat) < 8 ∧ (7 : Nat) < 8 ∧ scaleChannel 255#8 256#9 = 255#8 ∧ scaleChannel 0#8 255#9 = 0#8 ∧
    (unpack 0x0102FF#24).r = (unpack 0x01FF02#24).r ∧ (unpack 0x0102FF#24).g = (unpack 0x000200#24).g ∧
    (unpack 0x0102FF#24).b = (unpack 0x0000FF#24).b := by decide
theorem witness_PackGivesTheColourOrRangeError :
    ((0 : Int) ≤ 0 ∧ (255 : Int) ≤ 255) ∧ ¬ ((0 : Int) ≤ -1) ∧ ¬ ((256 : Int) ≤ 255) := by decide
theorem witness_FrameByteClosedForm : base.x[0 / 24]? = some 0#24 ∧ base.x[71 / 24]? = some 0xFF8000#24 := by decide
theorem witness_FrameHasTwentyFourBytesPerPixel : 1 ≤ (List.replicate 1 0#24).length ∧
    (List.replicate 32767 (0#24)).length ≤ 32767 := ⟨by decide, (List.length_replicate ..).le⟩
theorem witness_ResetSequenceConstructsTheCore :
    ({ base with rsp := [0#32] } : State).ready = false ∧ base.offered = [] := by decide
theorem witness_TickCountsTheGapDown :
    base.fsm ≠ .gapwait ∧ 1 < ({ base with fsm := .gapwait, gapCnt := 2 } : State).gapCnt := by decide
theorem witness_GapCounterClosedForm : ({ base with inputs := List.replicate 2 .tick } : State).offered = [] := by rfl

/-! States that meet the invariant, one in each phase. -/

theorem base_inv : base.Inv := ⟨by decide, by decide, by decide, by decide, by decide, by simp [State.phaseOk, base, State.construct, State.powerUp]⟩
theorem base_gapSafe : base.GapSafe :=
  ⟨by unfold GapRespected; decide, by decide, fun _ _ => by decide⟩

/-- `base` held in reset. -/
def held : State := { base with rst := true, fsm := .closed }
theorem held_inv : held.Inv := ⟨by decide, by decide, by decide, by decide, by decide, ⟨rfl, .inl rfl⟩⟩

/-- A SHOW of `base` with one tick of the gap to wait. -/
def waiting : State := { base with fsm := .gapwait, gapCnt := 1 }
theorem waiting_inv : waiting.Inv := ⟨by decide, by decide, by decide, by decide, by decide, ⟨rfl, rfl, rfl, rfl, by decide⟩⟩

/-- A SHOW of `base` with the call `p` in progress and `buf` in the TransmitBuffer. -/
def transmitting (p : Pending) (buf : List Byte) (seq : Nat) : State :=
  { base with fsm := .transmit, gapCnt := 0, tx := some ⟨buf, seq⟩, pending := some p }
theorem beginning_inv : (transmitting .beginning [] 0).Inv :=
  ⟨by decide, by decide, by decide, by decide, by decide, ⟨rfl, rfl, rfl, _, _, rfl, rfl, rfl, rfl⟩⟩
theorem writing_inv : (transmitting .writing base.frame 71).Inv :=
  ⟨by decide, by decide, by decide, by decide, by decide, ⟨rfl, rfl, rfl, _, _, rfl, rfl, rfl, by decide⟩⟩
theorem ending_inv : (transmitting (.ending false) base.frame 71).Inv :=
  ⟨by decide, by decide, by decide, by decide, by decide, ⟨rfl, rfl, rfl, _, _, rfl, rfl, rfl, by decide⟩⟩

/-- A CLOSE, and a reset sequence, whose call is unanswered. -/
theorem closing_inv : ({ base with pending := some .closing } : State).Inv :=
  ⟨by decide, by decide, by decide, by decide, by decide, ⟨rfl, rfl, .inr ⟨rfl, rfl⟩⟩⟩
theorem opening_inv : ({ base with fsm := .closed, pending := some .opening } : State).Inv :=
  ⟨by decide, by decide, by decide, by decide, by decide, ⟨rfl, .inr ⟨rfl, rfl, rfl⟩⟩⟩

theorem witness_CoreInResetDoesNothing : held.Inv ∧ held.rst = true ∧ held.inputs.head? = none := ⟨held_inv, rfl, rfl⟩
theorem witness_StepKeepsTheGap : base.Inv ∧ base.GapSafe ∧ (after (step base)).isSome = true :=
  ⟨base_inv, base_gapSafe, by decide⟩
theorem witness_RunsFromResetKeepTheGap : Config.build.wf = true ∧
    (after (Sys2Proof.core.run 2 { State.construct Config.build 1 .grb .k800 with
      inputs := [.tick], offered := [0x0800000000000000#64] })).isSome = true := by decide
theorem witness_StepSendsOnlyLegalResponses : base.ResponsesLegal := by
  intro w hw; cases hw
theorem witness_StepWritesOnlyWholeFrames : base.WritesAreFrames := by
  intro e he bytes hb
  rcases List.mem_cons.1 he with rfl | he
  · cases hb
  · rcases List.mem_cons.1 he with rfl | he
    · cases hb
    · cases he
theorem witness_RegistersChangeOnlyByTheirCommands :
    (offering 0x01000000000000FF#64).inputs = [] ∧ (after (step (offering 0x01000000000000FF#64))).map (·.x) ≠ some base.x ∧
      (after (step (offering 0x0700000000000080#64))).map (·.brt) ≠ some base.brt := by decide
/-- Each transition of FsmMovesOnlyAsTheTableSays is taken from a state that meets the invariant. -/
theorem witness_FsmMovesOnlyAsTheTableSays :
    waiting.Inv ∧ (waiting.react .tick).fsm = .transmit ∧
    (transmitting .beginning [] 0).Inv ∧ ((transmitting .beginning [] 0).react (.answer false)).fsm = .idle ∧
    (transmitting (.ending false) base.frame 71).Inv ∧
    ((transmitting (.ending false) base.frame 71).react (.answer true)).fsm = .idle ∧
    ({ base with pending := some .closing } : State).Inv ∧
    (State.react { base with pending := some .closing } (.answer false)).fsm = .closed ∧
    ({ base with fsm := .closed, pending := some .opening } : State).Inv ∧
    (State.react { base with fsm := .closed, pending := some .opening } (.answer true)).fsm = .idle ∧
    (base.react .rstAssert).fsm ≠ base.fsm :=
  ⟨waiting_inv, by decide, beginning_inv, by decide, ending_inv, by decide, closing_inv, by decide, opening_inv, by decide,
    by decide⟩
theorem witness_SeqCountsTheBytesHandedOver : (transmitting .writing base.frame 71).Inv ∧
    (transmitting .writing base.frame 71).pending = some .writing := ⟨writing_inv, rfl⟩

end Sys2Proof.Machine.Tests
end

section
/-! The scope: the codes of ORDER, FREQ and the requests, GAP_TICKS, and what no step changes (spec/00_scope.md R4, R7, R8). -/

namespace Sys2Proof

/-! GAP_TICKS (R7). -/

theorem Build.wf_iff (b : Build) : b.wf = true ↔ b.pulseZero ≠ b.pulseOne ∧ 0 < b.tickNum ∧ 0 < b.tickDen := by
  simp [Build.wf, and_assoc]

/-- R7 in Mathlib's terms: GAP_TICKS is the quotient GAP_NS / TICK_NS rounded up. -/
theorem Build.gapTicks_eq_ceilDiv {b : Build} (h : 0 < b.tickNum) :
    b.gapTicks = (Config.gapNs * b.tickDen) ⌈/⌉ b.tickNum := by
  rw [Build.gapTicks, Nat.ceilDiv_eq_add_pred_div, Nat.add_sub_assoc h]

/-- The numbers of ticks from GAP_TICKS on are exactly those that last GAP_NS. -/
theorem Build.gapTicks_le_iff {b : Build} (h : 0 < b.tickNum) (k : Nat) :
    b.gapTicks ≤ k ↔ Config.gapNs * b.tickDen ≤ k * b.tickNum := by
  rw [Build.gapTicks_eq_ceilDiv h, ceilDiv_le_iff_le_mul h, Nat.mul_comm k]

theorem Build.gapTicks_pos {b : Build} (hnum : 0 < b.tickNum) (hden : 0 < b.tickDen) : 0 < b.gapTicks := by
  rw [← not_le, Build.gapTicks_le_iff hnum, Nat.zero_mul, not_le]
  exact Nat.mul_pos (by decide) hden

/-- Settles O45: the numbers of ticks that last GAP_NS are exactly those from GAP_TICKS on, and 0 is none of them. -/
theorem gapTicksIsTheCeilingOfFiftyMicroseconds : Obligations.GapTicksIsTheCeilingOfFiftyMicroseconds := by
  intro b h
  obtain ⟨-, hnum, hden⟩ := b.wf_iff.1 h
  have hle := Build.gapTicks_le_iff hnum
  exact ⟨Build.gapTicks_pos hnum hden, (hle _).1 le_rfl, fun k => (hle k).2⟩

namespace Machine

/-! The codes (R8, R19, R20, R30). -/

theorem orderOfCode_eq_iff (order : Order) (code : BitVec 1) : orderOfCode code = order ↔ orderCode order = code := by
  obtain rfl | rfl := BitVec.eq_zero_or_eq_one code <;> cases order <;> decide

theorem freqOfCode_eq_iff (freq : FreqClass) (code : BitVec 1) : freqOfCode code = freq ↔ freqCode freq = code := by
  obtain rfl | rfl := BitVec.eq_zero_or_eq_one code <;> cases freq <;> decide

/-- Settles O57: reading a code inverts writing it, and the codes of a request are the values of `Call.kind`, `Call.arg`. -/
theorem codesOfOrderFreqAndRequests : Obligations.CodesOfOrderFreqAndRequests := by
  refine ⟨⟨rfl, rfl, rfl, rfl⟩, orderOfCode_eq_iff, freqOfCode_eq_iff, ?tOpen, ?kinds, ?args⟩
  case tOpen => exact fun _ => ⟨rfl, rfl⟩
  case kinds => exact ⟨rfl, fun _ => rfl, rfl, rfl⟩
  case args => exact ⟨rfl, fun _ => rfl, rfl, rfl⟩

/-! What an input leaves unchanged. -/

/-- The registers that only a command of their own or a reset changes (R14, R17, R19, R20), and the build. -/
def State.settings (s : State) : List Color × BitVec 9 × Order × FreqClass × Build :=
  (s.x, s.brt, s.order, s.freq, s.build)

theorem State.settings_eq_iff (s t : State) :
    s.settings = t.settings ↔
      s.x = t.x ∧ s.brt = t.brt ∧ s.order = t.order ∧ s.freq = t.freq ∧ s.build = t.build := by
  simp [State.settings]

theorem State.tick_settings (s : State) : s.tick.settings = s.settings := by
  obtain ⟨-, -, h⟩ | ⟨-, h⟩ := s.tick_cases
  · rw [h]; rfl
  · rw [h]; rfl

theorem State.answer_settings (s : State) (ok : Bool) : (s.answer ok).settings = s.settings := by
  cases hp : s.pending with
  | none => rw [State.answer_none ok hp]
  | some p =>
    cases p with
    | opening => rw [State.answer_opening ok hp]; rfl
    | beginning => rw [State.answer_beginning ok hp]; cases ok <;> rfl
    | writing => rw [State.answer_writing ok hp]; rfl
    | ending good => rw [State.answer_ending ok hp]; rfl
    | closing => rw [State.answer_closing ok hp]; rfl

theorem State.takeByte_settings (s : State) : s.takeByte.settings = s.settings := by
  obtain ⟨t, -, -, h⟩ | h := s.takeByte_cases
  · rw [h]; rfl
  · rw [h]

theorem State.takeResponse_settings (s : State) : s.takeResponse.settings = s.settings := by
  cases h : s.rsp with
  | nil => rw [State.takeResponse_nil h]
  | cons r rs => rw [State.takeResponse_cons h]; rfl

/-- Of all inputs only a reset changes the settings. -/
theorem State.react_settings (s : State) {e : Input} (he : e.noReset = true) : (s.react e).settings = s.settings := by
  cases e with
  | tick => exact s.tick_settings
  | answer ok => exact s.answer_settings ok
  | takeByte => exact s.takeByte_settings
  | word w => rfl
  | takeResponse => exact s.takeResponse_settings
  | rstAssert => cases he
  | rstRelease orderI freqI => cases he

theorem State.startShow_settings (s : State) : s.startShow.settings = s.settings := by
  unfold State.startShow
  split <;> rfl

/-! N and the build (R4, R13). -/

/-- The state belongs to a core with `n` pixels made with the build `b`. -/
def State.MadeWith (n : Nat) (b : Build) (s : State) : Prop := s.x.length = n ∧ s.build = b

theorem State.MadeWith.of_settings_eq {n : Nat} {b : Build} {s t : State} (h : t.settings = s.settings)
    (hs : s.MadeWith n b) : t.MadeWith n b := by
  obtain ⟨hx, -, -, -, hb⟩ := (State.settings_eq_iff t s).1 h
  exact ⟨hx ▸ hs.1, hb.trans hs.2⟩

theorem State.MadeWith.releaseReset {n : Nat} {b : Build} {s : State} (hs : s.MadeWith n b) (order : Order)
    (freq : FreqClass) : (s.releaseReset order freq).MadeWith n b := by
  cases h : s.rst with
  | false => rwa [State.releaseReset_idle order freq h]
  | true =>
    rw [State.releaseReset_of order freq h]
    exact ⟨List.length_replicate.trans hs.1, hs.2⟩

theorem State.MadeWith.react {n : Nat} {b : Build} {s : State} (hs : s.MadeWith n b) (e : Input) :
    (s.react e).MadeWith n b := by
  by_cases he : e.noReset = true
  · exact hs.of_settings_eq (s.react_settings he)
  · cases e with
    | rstAssert => exact hs
    | rstRelease orderI freqI => exact hs.releaseReset _ _
    | _ => exact absurd rfl he

theorem madeWith_kept (n : Nat) (b : Build) : Kept (State.MadeWith n b) where
  inputs _ _ hs := hs
  offered _ _ hs := hs
  react _ e hs := hs.react e
  raise _ _ hs _ _ := hs
  respond _ _ hs _ _ := hs
  respondAll _ _ hs _ _ := hs
  writePixel _ _ _ hs _ _ _ := ⟨List.length_set.trans hs.1, hs.2⟩
  writeBrt _ _ hs _ _ _ := hs
  startShow s hs _ _ := hs.of_settings_eq s.startShow_settings
  closing _ hs _ _ := hs

/-- Settles O52: N and the build are kept by every operation, hence by every step. -/
theorem pixelCountAndBuildNeverChange : Obligations.PixelCountAndBuildNeverChange :=
  fun s _ h => (madeWith_kept s.x.length s.build).step ⟨rfl, rfl⟩ h

end Machine
end Sys2Proof
end

section
/-! The state (spec/10_state.md): no run stops, what SET_BRIGHTNESS may change, which steps change the registers, and how SEQ
counts. -/

namespace Sys2Proof.Machine

/-! No step stops (R27, R131). -/

theorem State.accept_next (s : State) (k : State → State) : ∃ t, s.accept k = .next t := by
  cases hr : s.ready with
  | false => exact ⟨_, State.accept_notReady k hr⟩
  | true =>
    obtain ⟨-, hi | hc, -, -⟩ := s.ready_iff.1 hr
    · exact ⟨_, State.accept_idle k hr hi⟩
    · exact ⟨_, State.accept_closed k hr hc⟩

/-- Every command is an effect that acceptance guards, and no effect refuses. -/
theorem exec_next (i : Instr) (s : State) : ∃ t, exec i s = .next t := by
  cases i with
  | setPixel => rw [exec_setPixel]; exact s.accept_next _
  | setPixelRgb => rw [exec_setPixelRgb]; exact s.accept_next _
  | getPixel => rw [exec_getPixel]; exact s.accept_next _
  | getPixelColor => rw [exec_getPixelColor]; exact s.accept_next _
  | getPixels => rw [exec_getPixels]; exact s.accept_next _
  | count => rw [exec_count]; exact s.accept_next _
  | setBrightness => rw [exec_setBrightness]; exact s.accept_next _
  | showFrame => rw [exec_showFrame]; exact s.accept_next _
  | close => rw [exec_close]; exact s.accept_next _

theorem step_of_decode_ok {s s' : State} {w : CmdWord} {i : Instr} (hf : s.fetch = some (w, s')) (hd : decode w = .ok i) :
    step s = exec i s' := by
  simp [step, hf, hd]

theorem step_of_decode_error {s s' : State} {w : CmdWord} {e : Illegal} (hf : s.fetch = some (w, s'))
    (hd : decode w = .error e) : step s = .next s'.rejectWord := by
  simp [step, hf, hd]

theorem step_next (s : State) : ∃ t, step s = .next t := by
  cases hf : s.fetch with
  | none => exact ⟨_, step_of_fetch_none hf⟩
  | some p =>
    obtain ⟨w, s'⟩ := p
    cases hd : decode w with
    | ok i => exact step_of_decode_ok hf hd ▸ exec_next i s'
    | error e => exact ⟨_, step_of_decode_error hf hd⟩

theorem run_succ {s u : State} (h : step s = .next u) (n : Nat) : Sys2Proof.core.run (n + 1) s = Sys2Proof.core.run n u := by
  simp [Host.Core.run, Sys2Proof.core, h]

/-- Settles O8, by induction on the number of steps: each step ends in a next state. -/
theorem everyRunIsSafe : Obligations.EveryRunIsSafe := by
  intro n
  induction n with
  | zero => exact fun s => ⟨s, rfl⟩
  | succ n ih =>
    intro s
    obtain ⟨u, hu⟩ := step_next s
    obtain ⟨t, ht⟩ := ih u
    exact ⟨t, (run_succ hu n).trans ht⟩

/-! SET_BRIGHTNESS (R103, R18). -/

/-- Settles O18: of the three outcomes of acceptance only the effect in IDLE can write BRT, and it writes nothing else. -/
theorem setBrightnessChangesOnlyBrt : Obligations.SetBrightnessChangesOnlyBrt := by
  intro s t brt h
  rw [exec_setBrightness] at h
  obtain ⟨-, rfl⟩ | ⟨-, -, rfl⟩ | ⟨-, -, rfl⟩ := State.accept_cases h
  · rfl
  · rfl
  · cases brtOperand brt <;> rfl

/-! SEQ (R25, R34). -/

@[simp] theorem encodeFrame_length (b : Build) (px : List Color) (o : Order) (brt : BitVec 9) :
    (encodeFrame b px o brt).length = 24 * px.length := by
  induction px with
  | nil => rfl
  | cons c px ih => rw [encodeFrame_cons, List.length_append, encodePixel_length, ih, List.length_cons]; omega

/-- R108: while T_WRITE is unanswered the TransmitBuffer holds the frame, and SEQ counts within it. -/
theorem State.Inv.writing {s : State} (h : s.Inv) (hp : s.pending = some .writing) :
    ∃ t, s.tx = some t ∧ t.buf = s.frame ∧ t.seq ≤ s.frame.length := by
  have hphase := h.phase
  cases hf : s.fsm with
  | idle => simp [State.phaseOk, hf, hp] at hphase
  | gapwait => simp [State.phaseOk, hf, hp] at hphase
  | closed => simp [State.phaseOk, hf, hp] at hphase
  | transmit =>
    simp only [State.phaseOk, hf] at hphase
    obtain ⟨-, -, -, t, p, ht, hp', hfits⟩ := hphase
    cases hp.symm.trans hp'
    exact ⟨t, ht, hfits⟩

theorem State.takeByte_writing {s : State} {t : Transmit} (hp : s.pending = some .writing) (ht : s.tx = some t) :
    s.takeByte = { s with tx := some { t with seq := min (t.seq + 1) t.buf.length } } := by
  simp [State.takeByte, hp, ht]

/-- Settles O55: the buffer holds 24 N bytes and SEQ is at most that, so the capped successor is SEQ + 1 or SEQ itself. -/
theorem seqCountsTheBytesHandedOver : Obligations.SeqCountsTheBytesHandedOver := by
  intro s h hp
  obtain ⟨t, ht, hbuf, hseq⟩ := h.writing hp
  have hlen : s.frame.length = 24 * s.x.length := encodeFrame_length ..
  have hcap : min (t.seq + 1) t.buf.length = if t.seq < 24 * s.x.length then t.seq + 1 else t.seq := by
    rw [hbuf, hlen]
    split <;> omega
  exact ⟨t, ht, hcap ▸ State.takeByte_writing hp ht⟩

/-! Which steps change the registers (R14, R17, R19, R20). -/

/-- From `s` the inputs `used` lead to `t`, and where no reset is among them the settings stay. -/
def State.KeepsSettings (s t : State) : Prop :=
  ∃ used, s.inputs = used ++ t.inputs ∧ ((∀ e ∈ used, e.noReset = true) → t.settings = s.settings)

theorem State.KeepsSettings.of_eq {s t : State} (hin : t.inputs = s.inputs) (h : t.settings = s.settings) :
    s.KeepsSettings t :=
  ⟨[], hin.symm, fun _ => h⟩

theorem State.KeepsSettings.trans {s t u : State} (hst : s.KeepsSettings t) (htu : t.KeepsSettings u) :
    s.KeepsSettings u := by
  obtain ⟨a, hs, ha⟩ := hst
  obtain ⟨b, ht, hb⟩ := htu
  refine ⟨a ++ b, by rw [hs, ht, List.append_assoc], fun h => ?_⟩
  rw [List.forall_mem_append] at h
  exact (hb h.2).trans (ha h.1)

theorem State.react_inputs_eq (s : State) (e : Input) : (s.react e).inputs = s.inputs := by
  have h := s.react_inputs e s.inputs
  exact (congrArg State.inputs h :)

theorem State.react_keepsSettings {s : State} {e : Input} {es : List Input} (hin : s.inputs = e :: es) :
    s.KeepsSettings ({ s with inputs := es }.react e) := by
  refine ⟨[e], ?_, fun h => State.react_settings _ (h e (List.mem_singleton_self e))⟩
  rw [State.react_inputs_eq, hin]
  rfl

theorem State.runInputs_keepsSettings (es : List Input) :
    ∀ {s : State}, s.inputs = es → s.KeepsSettings (State.runInputs es s) := by
  induction es with
  | nil => exact fun _ => .of_eq rfl rfl
  | cons e es ih =>
    intro s hin
    cases hc : s.inCommand with
    | false => rw [State.runInputs_done _ hc]; exact .of_eq rfl rfl
    | true =>
      rw [State.runInputs_cons e es hc]
      exact (State.react_keepsSettings hin).trans (ih (State.react_inputs_eq _ e))

theorem State.complete_keepsSettings (s : State) : s.KeepsSettings s.complete := State.runInputs_keepsSettings _ rfl

theorem State.environment_keepsSettings (s : State) : s.KeepsSettings s.environment := by
  cases hin : s.inputs with
  | nil =>
    rw [State.environment_nil hin]
    exact .of_eq (s.react_inputs_eq .tick) s.tick_settings
  | cons e es => rw [State.environment_cons hin]; exact State.react_keepsSettings hin

theorem State.startShow_inputs (s : State) : s.startShow.inputs = s.inputs := by
  unfold State.startShow
  split <;> rfl

/-- SET_PIXEL and SET_PIXEL_RGB, the two commands that write x. -/
def IsPixelWrite (i : Instr) : Prop :=
  (∃ index color, i = .setPixel index color) ∨ ∃ index r g b, i = .setPixelRgb index r g b

theorem IsPixelWrite.ne_showFrame {i : Instr} (h : IsPixelWrite i) : i ≠ .showFrame := by
  rintro rfl
  simp [IsPixelWrite] at h

theorem IsPixelWrite.ne_close {i : Instr} (h : IsPixelWrite i) : i ≠ .close := by
  rintro rfl
  simp [IsPixelWrite] at h

theorem pixelWrite_brt {i : Instr} {s t : State} (hi : IsPixelWrite i) (h : exec i s = .next t) : t.brt = s.brt := by
  obtain ⟨index, color, rfl⟩ | ⟨index, r, g, b, rfl⟩ := hi
  · rw [exec_setPixel] at h
    obtain ⟨-, rfl⟩ | ⟨-, -, rfl⟩ | ⟨-, -, rfl⟩ := State.accept_cases h
    · rfl
    · rfl
    · cases s.cell index <;> rfl
  · rw [exec_setPixelRgb] at h
    obtain ⟨-, rfl⟩ | ⟨-, -, rfl⟩ | ⟨-, -, rfl⟩ := State.accept_cases h
    · rfl
    · rfl
    · cases s.cell index <;> cases pack r g b <;> rfl

theorem State.accept_keepsSettings {s t : State} {k : State → State} (hk : s.KeepsSettings (k s)) (h : s.accept k = .next t) :
    s.KeepsSettings t := by
  obtain ⟨-, rfl⟩ | ⟨-, -, rfl⟩ | ⟨-, -, rfl⟩ := State.accept_cases h
  · exact .of_eq rfl rfl
  · exact .of_eq rfl rfl
  · exact hk

/-- Every command but the three register writes keeps the settings. -/
theorem exec_keepsSettings {i : Instr} {s t : State} (hx : ¬ IsPixelWrite i) (hbrt : ∀ brt, i ≠ .setBrightness brt)
    (h : exec i s = .next t) : s.KeepsSettings t := by
  cases i with
  | setPixel index color => exact absurd (.inl ⟨index, color, rfl⟩) hx
  | setPixelRgb index r g b => exact absurd (.inr ⟨index, r, g, b, rfl⟩) hx
  | setBrightness brt => exact absurd rfl (hbrt brt)
  | getPixel index =>
    rw [exec_getPixel] at h
    refine State.accept_keepsSettings ?_ h
    cases s.cell index <;> exact .of_eq rfl rfl
  | getPixelColor index =>
    rw [exec_getPixelColor] at h
    refine State.accept_keepsSettings ?_ h
    cases s.cell index <;> exact .of_eq rfl rfl
  | getPixels => exact State.accept_keepsSettings (.of_eq rfl rfl) (exec_getPixels s ▸ h)
  | count => exact State.accept_keepsSettings (.of_eq rfl rfl) (exec_count s ▸ h)
  | showFrame =>
    rw [exec_showFrame] at h
    have hstart : s.KeepsSettings s.startShow := .of_eq s.startShow_inputs s.startShow_settings
    exact State.accept_keepsSettings (hstart.trans s.startShow.complete_keepsSettings) h
  | close =>
    rw [exec_close] at h
    have hcall : s.KeepsSettings (s.request .closing .tClose) := .of_eq rfl rfl
    exact State.accept_keepsSettings (hcall.trans (State.complete_keepsSettings _)) h

/-- Everything a command can do to the settings: keep them unless a reset is taken, or, accepted in IDLE, write a register. -/
theorem exec_settings_cases {i : Instr} {s t : State} (h : exec i s = .next t) :
    s.KeepsSettings t ∨ s.ready = true ∧ s.fsm = .idle ∧ (IsPixelWrite i ∨ ∃ brt, i = .setBrightness brt) := by
  obtain ⟨-, rfl⟩ | ⟨-, -, rfl⟩ | ⟨hr, hi⟩ := exec_cases h
  · exact .inl (.of_eq rfl rfl)
  · exact .inl (.of_eq rfl rfl)
  · by_cases hw : IsPixelWrite i ∨ ∃ brt, i = .setBrightness brt
    · exact .inr ⟨hr, hi, hw⟩
    · obtain ⟨hx, hbrt⟩ := not_or.1 hw
      exact .inl (exec_keepsSettings hx (not_exists.1 hbrt) h)

/-- The same of a step, with the word that a register write takes from the port. -/
theorem step_settings_cases {s t : State} (h : step s = .next t) :
    s.KeepsSettings t ∨
    s.ready = true ∧ s.fsm = .idle ∧ ∃ w ws i, s.offered = w :: ws ∧ decode w = .ok i ∧
      exec i { s with offered := ws } = .next t ∧ (IsPixelWrite i ∨ ∃ brt, i = .setBrightness brt) := by
  obtain ⟨w, ws, i, -, ho, hd, he⟩ | ⟨w, ws, e, -, -, -, rfl⟩ | ⟨-, rfl⟩ := step_cases h
  · obtain hk | ⟨hr, hi, hw⟩ := exec_settings_cases he
    · exact .inl hk
    · exact .inr ⟨hr, hi, w, ws, i, ho, hd, he, hw⟩
  · exact .inl (.of_eq rfl rfl)
  · exact .inl s.environment_keepsSettings

/-- Settles O53: a step that does not keep the settings takes no input; it runs a pixel write, which leaves BRT, or a
SET_BRIGHTNESS, which leaves x. -/
theorem registersChangeOnlyByTheirCommands : Obligations.RegistersChangeOnlyByTheirCommands := by
  intro s t h
  obtain ⟨used, hin, hkeep⟩ | ⟨hr, hi, w, ws, i, ho, hd, he, hw⟩ := step_settings_cases h
  · refine ⟨used, hin, fun hq => ?_⟩
    obtain ⟨hx, hbrt, hord, hfreq, -⟩ := (State.settings_eq_iff t s).1 (hkeep hq)
    exact ⟨absurd hx, absurd hbrt, hord, hfreq⟩
  · obtain hx | ⟨brt, rfl⟩ := hw
    · have ht := pixelCommand_effect hx.ne_showFrame hx.ne_close he
      have hbrt := pixelWrite_brt hx he
      have hoff : s.offered = w :: t.offered := by rw [ht, ho]
      have hcmd : (∃ index color, decode w = .ok (.setPixel index color)) ∨
          ∃ index r g b, decode w = .ok (.setPixelRgb index r g b) := by
        obtain ⟨index, color, rfl⟩ | ⟨index, r, g, b, rfl⟩ := hx
        · exact .inl ⟨index, color, hd⟩
        · exact .inr ⟨index, r, g, b, hd⟩
      exact ⟨[], by rw [ht]; rfl, fun _ =>
        ⟨fun _ => ⟨hr, hi, w, hoff, hcmd⟩, absurd hbrt, by rw [ht], by rw [ht]⟩⟩
    · have ht := setBrightnessChangesOnlyBrt _ t brt he
      have hx : t.x = s.x := by rw [ht]
      have hoff : s.offered = w :: t.offered := by rw [ht, ho]
      exact ⟨[], by rw [ht]; rfl, fun _ =>
        ⟨absurd hx, fun _ => ⟨hr, hi, w, brt, hoff, hd⟩, by rw [ht], by rw [ht]⟩⟩

end Sys2Proof.Machine
end

section
/-! The memory of the core (spec/20_memory.md): what the reads and the pixel writes leave unchanged, and that the SET
commands are idempotent. -/

namespace Sys2Proof.Machine

/-! The reads (R43, R14). -/

theorem State.accept_changesOnlyRsp {s t : State} {k : State → State} (hk : k s = { s with rsp := (k s).rsp })
    (h : s.accept k = .next t) : t = { s with rsp := t.rsp } := by
  obtain ⟨-, rfl⟩ | ⟨-, -, rfl⟩ | ⟨-, -, rfl⟩ := State.accept_cases h
  · rfl
  · rfl
  · exact hk

/-- Settles O16: the effect of each read, whether its index names a cell or not, sends response words and no more. -/
theorem readCommandsChangeOnlyTheResponsePort : Obligations.ReadCommandsChangeOnlyTheResponsePort := by
  intro s t i hi h
  obtain ⟨index, rfl | rfl⟩ | rfl | rfl := hi
  · refine State.accept_changesOnlyRsp ?_ (exec_getPixel index s ▸ h)
    cases s.cell index <;> rfl
  · refine State.accept_changesOnlyRsp ?_ (exec_getPixelColor index s ▸ h)
    cases s.cell index <;> rfl
  · exact State.accept_changesOnlyRsp rfl (exec_getPixels s ▸ h)
  · exact State.accept_changesOnlyRsp rfl (exec_count s ▸ h)

/-! What a SET command writes (R42, R43): nothing, one cell, or BRT. -/

/-- The write of a SET command; `none` where it reports an error. -/
inductive RegWrite where
  | none
  | cell (j : Nat) (color : Color)
  | brightness (v : BitVec 9)

/-- The write, by the operations that the meanings use. -/
def RegWrite.apply (w : RegWrite) (s : State) : State :=
  match w with
  | .none => s
  | .cell j color => s.writePixel j color
  | .brightness v => s.writeBrt v

namespace RegWrite
variable (w : RegWrite) (s : State)

@[simp] theorem apply_ready : (w.apply s).ready = s.ready := by cases w <;> rfl

@[simp] theorem apply_fsm : (w.apply s).fsm = s.fsm := by cases w <;> rfl

@[simp] theorem apply_rsp : (w.apply s).rsp = s.rsp := by cases w <;> rfl

@[simp] theorem apply_build : (w.apply s).build = s.build := by cases w <;> rfl

@[simp] theorem apply_x_length : (w.apply s).x.length = s.x.length := by
  cases w with
  | cell j color => exact List.length_set
  | _ => rfl

variable {w s} {t : State}

/-- A pixel or a brightness that is written again is there already. -/
theorem apply_x_again (h : t.x = (w.apply s).x) : (w.apply t).x = (w.apply s).x := by
  cases w with
  | cell j color => simp [apply, h]
  | _ => exact h

theorem apply_brt_again (h : t.brt = (w.apply s).brt) : (w.apply t).brt = (w.apply s).brt := by
  cases w with
  | brightness v => rfl
  | _ => exact h

end RegWrite

/-- `t` accepts commands in IDLE, and in what a SET command's checks look at, N and the build (R85, R130), it is as `s`. -/
structure State.AcceptsAs (s t : State) : Prop where
  made  : t.MadeWith s.x.length s.build
  ready : t.ready = true
  idle  : t.fsm = .idle

theorem State.AcceptsAs.refl {s : State} (hr : s.ready = true) (hi : s.fsm = .idle) : s.AcceptsAs s :=
  ⟨⟨rfl, rfl⟩, hr, hi⟩

theorem State.AcceptsAs.cell_eq {s t : State} (h : s.AcceptsAs t) (index : Int) : t.cell index = s.cell index := by
  simp only [State.cell, State.count, h.made.1]

theorem State.AcceptsAs.bothErrors_eq {s t : State} (h : s.AcceptsAs t) : t.bothErrors = s.bothErrors := by
  simp only [State.bothErrors, h.made.2]

/-- A write, with its answer taken, leaves what the checks look at as it was. -/
theorem State.AcceptsAs.apply {s : State} (h : s.AcceptsAs s) (w : RegWrite) (taken : List RspWord) :
    s.AcceptsAs { w.apply s with taken := taken } where
  made := ⟨w.apply_x_length s, w.apply_build s⟩
  ready := (w.apply_ready s).trans h.ready
  idle := (w.apply_fsm s).trans h.idle

/-- In every core that accepts commands as `s` does, `i` does the write `w` and answers `e`. -/
def State.Performs (s : State) (i : Instr) (w : RegWrite) (e : Status) : Prop :=
  ∀ t, s.AcceptsAs t → exec i t = .next ((w.apply t).respond e 0)

theorem State.Performs.of_effect {s : State} {i : Instr} {w : RegWrite} {e : Status} {k : State → State}
    (hi : ∀ t, exec i t = t.accept k) (hk : ∀ t, s.AcceptsAs t → k t = (w.apply t).respond e 0) : s.Performs i w e := by
  intro t ht
  rw [hi, State.accept_idle k ht.ready ht.idle, hk t ht]

/-- SET_PIXEL or SET_PIXEL_RGB with this index operand. -/
def IsPixelWriteAt (index : Int) (i : Instr) : Prop :=
  (∃ color, i = .setPixel index color) ∨ ∃ r g b, i = .setPixelRgb index r g b

/-- The write changes no register but the cell that `index` names. -/
def RegWrite.WithinCell (index : Int) : RegWrite → Prop
  | .none => True
  | .cell j _ => (j : Int) = index
  | .brightness _ => False

/-- R97, R98: every outcome of a pixel write, decided by the index and, for SET_PIXEL_RGB, by PACK. -/
theorem pixelWrite_performs {index : Int} {i : Instr} (hi : IsPixelWriteAt index i) (s : State) :
    ∃ w e, s.Performs i w e ∧ w.WithinCell index := by
  obtain ⟨color, rfl⟩ | ⟨r, g, b, rfl⟩ := hi
  · cases hc : s.cell index with
    | none =>
      refine ⟨.none, .indexError, .of_effect (exec_setPixel index color) fun t ht => ?_, trivial⟩
      rw [ht.cell_eq, hc]
      rfl
    | some j =>
      refine ⟨.cell j color, .ok, .of_effect (exec_setPixel index color) fun t ht => ?_, (State.cell_some hc).2.symm⟩
      rw [ht.cell_eq, hc]
      rfl
  · cases hc : s.cell index with
    | none =>
      cases hp : pack r g b with
      | none =>
        refine ⟨.none, s.bothErrors, .of_effect (exec_setPixelRgb index r g b) fun t ht => ?_, trivial⟩
        rw [ht.cell_eq, hc, hp, ht.bothErrors_eq]
        rfl
      | some color =>
        refine ⟨.none, .indexError, .of_effect (exec_setPixelRgb index r g b) fun t ht => ?_, trivial⟩
        rw [ht.cell_eq, hc, hp]
        rfl
    | some j =>
      cases hp : pack r g b with
      | none =>
        refine ⟨.none, .rangeError, .of_effect (exec_setPixelRgb index r g b) fun t ht => ?_, trivial⟩
        rw [ht.cell_eq, hc, hp]
        rfl
      | some color =>
        refine ⟨.cell j color, .ok, .of_effect (exec_setPixelRgb index r g b) fun t ht => ?_,
          (State.cell_some hc).2.symm⟩
        rw [ht.cell_eq, hc, hp]
        rfl

/-- R103: both outcomes of SET_BRIGHTNESS. -/
theorem setBrightness_performs (brt : Int) (s : State) : ∃ w e, s.Performs (.setBrightness brt) w e := by
  cases hv : brtOperand brt with
  | none => exact ⟨.none, .rangeError, .of_effect (exec_setBrightness brt) fun t _ => by rw [hv]; rfl⟩
  | some v => exact ⟨.brightness v, .ok, .of_effect (exec_setBrightness brt) fun t _ => by rw [hv]; rfl⟩

theorem setCommand_performs {i : Instr}
    (hi : (∃ index color, i = .setPixel index color) ∨ (∃ index r g b, i = .setPixelRgb index r g b) ∨
      ∃ brt, i = .setBrightness brt) (s : State) : ∃ w e, s.Performs i w e := by
  obtain ⟨index, color, rfl⟩ | ⟨index, r, g, b, rfl⟩ | ⟨brt, rfl⟩ := hi
  · obtain ⟨w, e, hw, -⟩ := pixelWrite_performs (.inl ⟨color, rfl⟩) s
    exact ⟨w, e, hw⟩
  · obtain ⟨w, e, hw, -⟩ := pixelWrite_performs (.inr ⟨r, g, b, rfl⟩) s
    exact ⟨w, e, hw⟩
  · exact setBrightness_performs brt s

/-! The pixel writes (R97, R98, R42). -/

/-- `t` is `s` but for the response port and the cell that `index` names. -/
def State.SameButCell (index : Int) (s t : State) : Prop :=
  t = { s with x := t.x, rsp := t.rsp } ∧ t.x.length = s.x.length ∧ ∀ j : Nat, (j : Int) ≠ index → t.x[j]? = s.x[j]?

theorem State.SameButCell.of_rsp_only {index : Int} {s t : State} (h : t = { s with rsp := t.rsp }) :
    s.SameButCell index t := by
  rw [h]
  exact ⟨rfl, rfl, fun _ _ => rfl⟩

theorem RegWrite.WithinCell.sameButCell {index : Int} {w : RegWrite} (h : w.WithinCell index) (s : State) (e : Status) :
    s.SameButCell index ((w.apply s).respond e 0) := by
  cases w with
  | none => exact .of_rsp_only rfl
  | cell j color =>
    refine ⟨rfl, List.length_set, fun k hk => List.getElem?_set_ne ?_⟩
    rintro rfl
    exact hk h
  | brightness v => exact h.elim

/-- Settles O17: a pixel write that is not performed in IDLE changes at most the response port, and one that is performed
writes within the cell its index names. -/
theorem pixelWritesChangeOnlyTheirCell : Obligations.PixelWritesChangeOnlyTheirCell := by
  intro s t i index hi h
  obtain ⟨-, rfl⟩ | ⟨-, -, rfl⟩ | ⟨hr, hidle⟩ := exec_cases h
  · exact State.SameButCell.of_rsp_only rfl
  · exact State.SameButCell.of_rsp_only rfl
  · obtain ⟨w, e, hw, hcell⟩ := pixelWrite_performs hi s
    cases Host.Outcome.next.inj ((hw s (.refl hr hidle)).symm.trans h)
    exact hcell.sameButCell s e

/-! Idempotence (R43). -/

theorem State.takeResponse_respond {s : State} (h : s.rsp = []) (st : Status) (d : BitVec 24) :
    (s.respond st d).takeResponse = { s with taken := s.taken ++ [responseWord st d] } := by
  rw [State.respond_of_empty h, State.takeResponse_cons rfl, ← h]

/-- `u` has the pixels, the brightness and the answer of `t`. -/
def State.SameResult (t u : State) : Prop := u.x = t.x ∧ u.brt = t.brt ∧ u.rsp = t.rsp

/-- A command turned away in CLOSED is turned away again. -/
theorem closed_sameResult {i : Instr} {s u : State} (hr : s.ready = true) (hc : s.fsm = .closed)
    (h : exec i (s.raise .transportUnavailable).takeResponse = .next u) :
    (s.raise .transportUnavailable).SameResult u := by
  rw [State.raise, State.takeResponse_respond (State.ready_rsp hr)] at h
  obtain ⟨hn, -⟩ | ⟨-, -, rfl⟩ | ⟨-, hi⟩ := exec_cases h
  · cases hr.symm.trans hn
  · exact ⟨rfl, rfl, rfl⟩
  · cases hc.symm.trans hi

theorem State.Performs.sameResult {s u : State} {i : Instr} {w : RegWrite} {e : Status} (hw : s.Performs i w e)
    (hs : s.AcceptsAs s) (h : exec i ((w.apply s).respond e 0).takeResponse = .next u) :
    ((w.apply s).respond e 0).SameResult u := by
  rw [State.takeResponse_respond ((w.apply_rsp s).trans (State.ready_rsp hs.ready))] at h
  cases Host.Outcome.next.inj ((hw _ (hs.apply w _)).symm.trans h)
  exact ⟨RegWrite.apply_x_again rfl, RegWrite.apply_brt_again rfl, congrArg (· ++ _) (w.apply_rsp _)⟩

/-- Settles O21: a SET command turned away in CLOSED is turned away again, and one that is performed in IDLE leaves a core
that performs the same write and gives the same answer. -/
theorem setCommandsAreIdempotent : Obligations.SetCommandsAreIdempotent := by
  intro s t u i hi hr ht hu
  obtain ⟨hn, -⟩ | ⟨-, hc, rfl⟩ | ⟨-, hidle⟩ := exec_cases ht
  · cases hr.symm.trans hn
  · exact closed_sameResult hr hc hu
  · have hs := State.AcceptsAs.refl hr hidle
    obtain ⟨w, e, hw⟩ := setCommand_performs hi s
    cases Host.Outcome.next.inj ((hw s hs).symm.trans ht)
    exact hw.sameResult hs hu

end Sys2Proof.Machine
end

section
/-! The encoding (spec/30_encoding.md): which words are illegal (R57 to R61, R65), and that every response word is legal (R63). -/

namespace Sys2Proof

/-! Illegal words. -/

/-- The bits a format marks MBZ, as the number they make: its MBZ fields lie side by side in the word (R57 to R61). -/
def Format.mbzBits (w : Nat) : Format → Nat
  | .n => w % 2 ^ 56
  | .i => w % 2 ^ 40
  | .ic => w / 2 ^ 24 % 2 ^ 16
  | .it => w / 2 ^ 36 % 2 ^ 4
  | .b => w / 2 ^ 16 % 2 ^ 40

theorem field_beq_zero {n : Nat} (v : BitVec n) : (v == 0) = true ↔ v.toNat = 0 := by
  rw [beq_iff_eq, ← BitVec.toNat_inj, BitVec.ofNat_eq_ofNat, BitVec.toNat_zero]

theorem mbzClear_iff (f : Format) (w : CmdWord) : mbzClear f w = true ↔ f.mbzBits w.toNat = 0 := by
  cases f with
  | n =>
    rw [mbzClear, Bool.and_eq_true, field_beq_zero, field_beq_zero, idxField_toNat, payField_toNat, Format.mbzBits]
    omega
  | i => rw [mbzClear, field_beq_zero, payField_toNat, Format.mbzBits]
  | ic => rw [mbzClear, field_beq_zero, icMbzField_toNat, Format.mbzBits]
  | it => rw [mbzClear, field_beq_zero, itMbzField_toNat, Format.mbzBits]
  | b =>
    rw [mbzClear, Bool.and_eq_true, field_beq_zero, field_beq_zero, idxField_toNat, bMbzField_toNat, Format.mbzBits]
    omega

theorem opcodeOf_none {c : BitVec 8} (h : opcodeOf c = none) : c.toNat = 0 ∨ 9 < c.toNat := by
  unfold opcodeOf at h
  split at h
  case h_10 => simp only [imp_false] at *; omega
  all_goals cases h

theorem decode_of_opcodeOf_none {w : CmdWord} (h : opcodeOf (opField w) = none) : decode w = .error .reservedOp := by
  rw [decode, h]

/-- Where the operation is assigned, only an MBZ bit can make the word illegal. -/
theorem decode_error_iff_of_opcodeOf {w : CmdWord} {o : Opcode} (h : opcodeOf (opField w) = some o) :
    (∃ e, decode w = .error e) ↔ (formatOf o).mbzBits w.toNat ≠ 0 := by
  rw [decode, h, Ne, ← mbzClear_iff]
  by_cases hm : mbzClear (formatOf o) w = true <;> simp [hm]

/-- Settles O3: a word without an operation has its `op` outside 1..9; one with an operation has that operation's code as its
`op`, which leaves of the statement the MBZ bits of that operation's format. -/
theorem illegalWordIsReservedOpOrNonzeroMbz : Obligations.IllegalWordIsReservedOpOrNonzeroMbz := by
  intro w
  cases ho : opcodeOf (opField w) with
  | none =>
    have hop := opcodeOf_none ho
    rw [opField_toNat] at hop
    exact iff_of_true ⟨_, decode_of_opcodeOf_none ho⟩ (.inl hop)
  | some o =>
    have hop : w.toNat / 2 ^ 56 = (opcodeWord o).toNat := by rw [opcodeWord_of_opcodeOf ho, opField_toNat]
    rw [decode_error_iff_of_opcodeOf ho]
    simp only [hop]
    cases o <;> simp [opcodeWord, formatOf, Format.mbzBits]

namespace Machine

/-! Legal responses. -/

theorem statusCode_mem (st : Status) : statusCode st ∈ [0#4, 1#4, 2#4, 3#4, 15#4] := by
  cases st <;> decide

/-- A response word is legal where it carries data only with status OK. -/
theorem legalResponse_responseWord {st : Status} {d : BitVec 24} (h : st ≠ .ok → d = 0#24) :
    LegalResponse (responseWord st d) := by
  rw [LegalResponse, statusField_responseWord, dataField_responseWord]
  exact ⟨statusCode_mem st, reservedField_responseWord st d, fun hst => h fun hok => hst (congrArg statusCode hok)⟩

namespace State.ResponsesLegal
variable {s t : State} (hs : s.ResponsesLegal)
include hs

/-- Legal words may be sent after the others. -/
theorem send {ws : List RspWord} (hw : ∀ w ∈ ws, LegalResponse w) (hrsp : t.rsp = s.rsp ++ ws)
    (htaken : t.taken = s.taken) : t.ResponsesLegal := by
  intro w h
  rw [hrsp, htaken, List.append_assoc, List.mem_append, List.mem_append] at h
  obtain h | h | h := h
  · exact hs w (List.mem_append_left _ h)
  · exact hw w h
  · exact hs w (List.mem_append_right _ h)

/-- The responses not yet taken may be dropped. -/
theorem drop (hrsp : t.rsp = []) (htaken : t.taken = s.taken) : t.ResponsesLegal := by
  intro w h
  rw [hrsp, htaken] at h
  exact hs w (List.mem_append_right _ h)

theorem respond {st : Status} {d : BitVec 24} (h : st ≠ .ok → d = 0#24) : (s.respond st d).ResponsesLegal :=
  hs.send (List.forall_mem_singleton.2 (legalResponse_responseWord h)) rfl rfl

theorem respondAll (vs : List Color) : (s.respondAll vs).ResponsesLegal :=
  hs.send (List.forall_mem_map.2 fun _ _ => legalResponse_responseWord (absurd rfl)) rfl rfl

theorem finishShow (st : Status) : (s.finishShow st).ResponsesLegal :=
  hs.send (List.forall_mem_singleton.2 (legalResponse_responseWord fun _ => rfl)) rfl rfl

theorem takeResponse : s.takeResponse.ResponsesLegal := by
  cases h : s.rsp with
  | nil => rwa [State.takeResponse_nil h]
  | cons r rs =>
    rw [State.takeResponse_cons h]
    exact fun w hw => hs w (by simpa [h, or_comm, or_left_comm] using hw)

theorem tick : s.tick.ResponsesLegal := by
  obtain ⟨-, -, h⟩ | ⟨-, h⟩ := s.tick_cases
  · rw [h]; exact hs
  · rw [h]; exact hs

theorem answer (ok : Bool) : (s.answer ok).ResponsesLegal := by
  cases hp : s.pending with
  | none => rwa [State.answer_none ok hp]
  | some p =>
    cases p with
    | opening => rw [State.answer_opening ok hp]; exact hs
    | beginning =>
      rw [State.answer_beginning ok hp]
      cases ok with
      | true => exact hs
      | false => exact finishShow hs _
    | writing => rw [State.answer_writing ok hp]; exact hs
    | ending good => rw [State.answer_ending ok hp]; exact finishShow hs _
    | closing => rw [State.answer_closing ok hp]; exact respond hs fun _ => rfl

theorem takeByte : s.takeByte.ResponsesLegal := by
  obtain ⟨t, -, -, h⟩ | h := s.takeByte_cases
  · rw [h]; exact hs
  · rwa [h]

theorem releaseReset (order : Order) (freq : FreqClass) : (s.releaseReset order freq).ResponsesLegal := by
  cases h : s.rst with
  | false => rwa [State.releaseReset_idle order freq h]
  | true => rw [State.releaseReset_of order freq h]; exact hs.drop rfl rfl

theorem react (e : Input) : (s.react e).ResponsesLegal := by
  cases e with
  | tick => exact hs.tick
  | answer ok => exact hs.answer ok
  | takeByte => exact hs.takeByte
  | word w => exact hs
  | takeResponse => exact hs.takeResponse
  | rstAssert => exact hs.drop rfl rfl
  | rstRelease orderI freqI => exact hs.releaseReset _ _

theorem startShow : s.startShow.ResponsesLegal := by
  unfold State.startShow
  split <;> exact hs

end State.ResponsesLegal

theorem responsesLegal_kept : Kept State.ResponsesLegal where
  inputs _ _ hs := hs
  offered _ _ hs := hs
  react _ e hs := hs.react e
  raise _ _ hs _ _ := hs.respond fun _ => rfl
  respond _ _ hs _ _ := hs.respond (absurd rfl)
  respondAll _ vs hs _ _ := hs.respondAll vs
  writePixel _ _ _ hs _ _ _ := hs
  writeBrt _ _ hs _ _ _ := hs
  startShow _ hs _ _ := hs.startShow
  closing _ hs _ _ := hs

/-- Settles O50: every operation sends only legal responses, hence every step does. -/
theorem stepSendsOnlyLegalResponses : Obligations.StepSendsOnlyLegalResponses :=
  fun _ _ hs h => responsesLegal_kept.step hs h

end Machine
end Sys2Proof
end

section
/-! The BitEncoder: the LUT read bit by bit, the value read back from its waveform, and the packing of the output port
(spec/40_bitencoder.md R72 to R74). -/

namespace Sys2Proof.Machine

/-! The waveform follows the bits of its value (R72, R74). -/

/-- The LUT address `8 v + i` splits back into the value and the index of the PulseByte. -/
theorem lutByte_waveform (b : Build) (v : Byte) {i : Nat} (hi : i < 8) :
    lutByte b (8 * v.toNat + i) = if v.getLsbD (7 - i) then b.pulseOne else b.pulseZero := by
  have hdiv : (8 * v.toNat + i) / 8 = v.toNat := by omega
  have hmod : (8 * v.toNat + i) % 8 = i := by omega
  rw [lutByte, hdiv, hmod, BitVec.testBit_toNat]

theorem encodeByte_getElem? (b : Build) (v : Byte) {i : Nat} (hi : i < 8) :
    (encodeByte b v)[i]? = some (if v.getLsbD (7 - i) then b.pulseOne else b.pulseZero) := by
  rw [← lutByte_waveform b v hi]
  simp [encodeByte, memRead, hi]

/-- Settles O29: the i-th PulseByte is the LUT byte at `8 v + i`, which depends on bit 7 - i of v alone. -/
theorem encodeByteFollowsTheBits : Obligations.EncodeByteFollowsTheBits :=
  fun b v => ⟨encodeByte_length b v, fun _ hi => encodeByte_getElem? b v hi⟩

/-- The two pulses differ, so a PulseByte tells the bit it was made from. -/
theorem getLsbD_iff_encodeByte_eq_pulseOne {b : Build} (hb : b.pulseZero ≠ b.pulseOne) (v : Byte) {i : Nat} (hi : i < 8) :
    v.getLsbD (7 - i) = true ↔ (encodeByte b v)[i]? = some b.pulseOne := by
  rw [encodeByte_getElem? b v hi, Option.some_inj]
  cases v.getLsbD (7 - i) with
  | false => simp [hb]
  | true => simp

theorem encodeByte_injective {b : Build} (hb : b.pulseZero ≠ b.pulseOne) : Function.Injective (encodeByte b) := by
  intro v w h
  refine BitVec.eq_of_getLsbD_eq fun j hj => Bool.eq_iff_iff.2 ?_
  have hindex : 7 - (7 - j) = j := by omega
  have hv := getLsbD_iff_encodeByte_eq_pulseOne hb v (i := 7 - j) (by omega)
  have hw := getLsbD_iff_encodeByte_eq_pulseOne hb w (i := 7 - j) (by omega)
  rw [hindex] at hv hw
  rw [hv, hw, h]

/-- Settles O30: every bit is read back from its PulseByte, so values with one waveform agree in every bit. -/
theorem encodeByteIsInjective : Obligations.EncodeByteIsInjective := by
  intro b v w h
  obtain ⟨hb, -, -⟩ := b.wf_iff.1 h
  exact ⟨fun heq => encodeByte_injective hb heq, fun _ hi => getLsbD_iff_encodeByte_eq_pulseOne hb v hi⟩

/-! The output port: one byte after the other shifted in from below (R73). -/

/-- One step of the packing of `encOut`: the bytes held move up by one place, and `w` takes the lowest. -/
def shiftIn (w : Byte) (acc : BitVec 64) : BitVec 64 := (acc <<< 8) ||| w.setWidth 64

/-- The last byte of the waveform is shifted in last. -/
theorem encOut_eq_foldr_shiftIn (b : Build) (v : Byte) : encOut b v = (encodeByte b v).reverse.foldr shiftIn 0 :=
  List.foldl_eq_foldr_reverse

theorem shiftIn_lowest (w : Byte) (acc : BitVec 64) : (shiftIn w acc).extractLsb' 0 8 = w := by
  ext j hj
  have hw : j < 64 := by omega
  simp [shiftIn, hj, hw]

theorem shiftIn_above (w : Byte) (acc : BitVec 64) {k : Nat} (hk : k < 7) :
    (shiftIn w acc).extractLsb' (8 * (k + 1)) 8 = acc.extractLsb' (8 * k) 8 := by
  ext j hj
  have hin : 8 * (k + 1) + j < 64 := by omega
  have hacc : 8 * k + j < 64 := by omega
  have hheld : ¬ 8 * (k + 1) + j < 8 := by omega
  have hfrom : 8 * (k + 1) + j - 8 = 8 * k + j := by omega
  have habove : w.getLsbD (8 * (k + 1) + j) = false := BitVec.getLsbD_of_ge w _ (by omega)
  simp [shiftIn, hin, hheld, hfrom, habove, BitVec.getLsbD_eq_getElem hacc]

/-- Of the bytes shifted in, counted from the last one, the k-th stands in byte k of the port. -/
theorem getElem?_eq_byte_of_foldr_shiftIn (acc : BitVec 64) (ws : List Byte) {k : Nat} (hlen : k < ws.length) (hk : k < 8) :
    ws[k]? = some ((ws.foldr shiftIn acc).extractLsb' (8 * k) 8) := by
  induction ws generalizing k with
  | nil => exact absurd hlen (Nat.not_lt_zero k)
  | cons w ws ih =>
    cases k with
    | zero => exact congrArg some (shiftIn_lowest w _).symm
    | succ k =>
      rw [List.getElem?_cons_succ, List.foldr_cons, shiftIn_above w _ (by omega)]
      exact ih (Nat.lt_of_succ_lt_succ hlen) (by omega)

/-- Settles O31: PulseByte i is number 7 - i from the last, so it is byte 7 - i of the port. -/
theorem encoderOutputHoldsFirstByteHighest : Obligations.EncoderOutputHoldsFirstByteHighest := by
  intro b v i hi
  have hlen : 7 - i < (encodeByte b v).length := by rw [encodeByte_length]; omega
  have hindex : (encodeByte b v).length - 1 - (7 - i) = i := by rw [encodeByte_length]; omega
  have hbyte := getElem?_eq_byte_of_foldr_shiftIn 0 (encodeByte b v).reverse (k := 7 - i)
    (by rwa [List.length_reverse]) (by omega)
  rwa [List.getElem?_reverse hlen, hindex, ← encOut_eq_foldr_shiftIn] at hbyte

end Sys2Proof.Machine
end

section
/-! The ColorModel: PACK as the inverse of UNPACK, and the brightness multiplier as a rounded-down quotient
(spec/41_colormodel.md R77 to R81). -/

namespace Sys2Proof.Machine

/-! PACK and UNPACK (R77 to R79). -/

theorem channelInRange_iff {v : Int} : channelInRange v = true ↔ 0 ≤ v ∧ v ≤ 255 := by
  simp [channelInRange]

/-- The operands in range are the values of the Bytes. -/
theorem channelInRange_iff_exists_byte {v : Int} : channelInRange v = true ↔ ∃ ch : Byte, v = ch.toNat := by
  rw [channelInRange_iff]
  constructor
  · rintro ⟨h0, h255⟩
    have hv := ofInt_toNat_of (n := 8) h0 (by omega)
    exact ⟨BitVec.ofInt 8 v, by omega⟩
  · rintro ⟨ch, rfl⟩
    have := ch.isLt
    omega

theorem pack_toNat (r g b : Byte) : pack r.toNat g.toNat b.toNat = some (colorOf ⟨r, g, b⟩) := by
  have hin (ch : Byte) : channelInRange ch.toNat = true := channelInRange_iff_exists_byte.2 ⟨ch, rfl⟩
  simp [pack, hin]

/-- PACK tells only whether all three channels are in range, not which one is out of it. -/
theorem pack_eq_none {r g b : Int}
    (h : ¬ (channelInRange r = true ∧ channelInRange g = true ∧ channelInRange b = true)) : pack r g b = none := by
  rw [pack, if_neg]
  rwa [Bool.and_eq_true, Bool.and_eq_true, and_assoc]

theorem colorOf_eq_ofInt (r g b : Byte) :
    colorOf ⟨r, g, b⟩ = BitVec.ofInt 24 ((r.toNat : Int) * 65536 + (g.toNat : Int) * 256 + (b.toNat : Int)) := by
  have hsum : (r.toNat : Int) * 65536 + (g.toNat : Int) * 256 + (b.toNat : Int) = ((colorOf ⟨r, g, b⟩).toNat : Int) := by
    rw [colorOf_toNat]
    push_cast
    rfl
  rw [hsum, BitVec.ofInt_natCast, BitVec.ofNat_toNat, BitVec.setWidth_eq]

/-- Settles O32: operands in range are three Bytes, whose Color is the number asked for; all others are rejected. -/
theorem packGivesTheColourOrRangeError : Obligations.PackGivesTheColourOrRangeError := by
  intro r g b
  have hrange : (0 ≤ r ∧ r ≤ 255 ∧ 0 ≤ g ∧ g ≤ 255 ∧ 0 ≤ b ∧ b ≤ 255) ↔
      channelInRange r = true ∧ channelInRange g = true ∧ channelInRange b = true := by
    simp only [channelInRange_iff, and_assoc]
  rw [hrange]
  refine ⟨?_, pack_eq_none⟩
  simp only [channelInRange_iff_exists_byte]
  rintro ⟨⟨r, rfl⟩, ⟨g, rfl⟩, ⟨b, rfl⟩⟩
  rw [pack_toNat, colorOf_eq_ofInt]

/-- Settles O33: on Bytes PACK is `colorOf`, which is inverse to UNPACK on both sides. -/
theorem packAndUnpackAreInverse : Obligations.PackAndUnpackAreInverse := by
  constructor
  · intro r g b
    rw [pack_toNat, Option.map_some, unpack_colorOf]
  · intro c
    rw [pack_toNat]
    exact congrArg some (colorOf_unpack c)

/-! SCALE (R80, R81, R83). -/

@[simp] theorem scale_r (c : Color) (brt : BitVec 9) : (scale c brt).r = scaleChannel (unpack c).r brt := rfl

@[simp] theorem scale_g (c : Color) (brt : BitVec 9) : (scale c brt).g = scaleChannel (unpack c).g brt := rfl

@[simp] theorem scale_b (c : Color) (brt : BitVec 9) : (scale c brt).b = scaleChannel (unpack c).b brt := rfl

/-- Settles O34: the product of a Byte and a brightness up to 256, divided by 256, is a Byte again, so nothing is cut off. -/
theorem scaleTruncatesEachChannel : Obligations.ScaleTruncatesEachChannel := by
  intro c brt h
  rw [scale_r, scale_g, scale_b]
  exact ⟨scaleChannel_toNat _ h, scaleChannel_toNat _ h, scaleChannel_toNat _ h⟩

theorem scaleChannel_le (ch : Byte) {brt : BitVec 9} (h : brt.toNat ≤ 256) : (scaleChannel ch brt).toNat ≤ ch.toNat := by
  rw [scaleChannel_toNat ch h]
  exact Nat.div_le_of_le_mul (Nat.mul_comm 256 _ ▸ Nat.mul_le_mul_left _ h)

@[simp] theorem scaleChannel_brt_zero (ch : Byte) : scaleChannel ch 0#9 = 0#8 := by
  simp [scaleChannel]

@[simp] theorem scaleChannel_brt_full (ch : Byte) : scaleChannel ch 256#9 = ch := by
  apply BitVec.eq_of_toNat_eq
  rw [scaleChannel_toNat ch (by decide)]
  exact Nat.mul_div_cancel _ (by decide)

@[simp] theorem scaleChannel_black (brt : BitVec 9) : scaleChannel 0#8 brt = 0#8 := by
  simp [scaleChannel]

/-- R81 (c) in both arguments at once. -/
theorem scaleChannel_mono {ch ch' : Byte} {brt brt' : BitVec 9} (hmax : brt'.toNat ≤ 256) (hch : ch.toNat ≤ ch'.toNat)
    (hbrt : brt.toNat ≤ brt'.toNat) : (scaleChannel ch brt).toNat ≤ (scaleChannel ch' brt').toNat := by
  rw [scaleChannel_toNat ch (hbrt.trans hmax), scaleChannel_toNat ch' hmax]
  exact Nat.div_le_div_right (Nat.mul_le_mul hch hbrt)

/-- A channel above 0 that keeps its value has `ch * 256 ≤ ch * brt`. -/
theorem scaleChannel_eq_self {ch : Byte} {brt : BitVec 9} (h : brt.toNat ≤ 256) (heq : scaleChannel ch brt = ch) :
    brt = 256#9 ∨ ch = 0#8 := by
  obtain hz | hpos := Nat.eq_zero_or_pos ch.toNat
  · exact .inr (BitVec.eq_of_toNat_eq hz)
  · have hquot : ch.toNat * brt.toNat / 256 = ch.toNat := by rw [← scaleChannel_toNat ch h, heq]
    have hprod : ch.toNat * 256 ≤ ch.toNat * brt.toNat := by
      simpa only [hquot] using Nat.div_mul_le_self (ch.toNat * brt.toNat) 256
    have hfull : 256 ≤ brt.toNat := Nat.le_of_mul_le_mul_left hprod hpos
    exact .inl (BitVec.eq_of_toNat_eq (Nat.le_antisymm h hfull))

/-- Settles O35, property by property in the order (a) to (e) of R81. -/
theorem scaleIsBoundedMonotoneAndIndependent : Obligations.ScaleIsBoundedMonotoneAndIndependent := by
  refine ⟨fun ch _ h => scaleChannel_le ch h,
    fun ch => ⟨scaleChannel_brt_zero ch, scaleChannel_brt_full ch⟩,
    scaleChannel_black,
    fun _ _ _ h hch => scaleChannel_mono h hch le_rfl,
    fun _ _ _ h hbrt => scaleChannel_mono h le_rfl hbrt,
    fun _ _ h heq => scaleChannel_eq_self h heq,
    fun c c' brt => ⟨fun h => ?_, fun h => ?_, fun h => ?_⟩⟩
  · rw [scale_r, scale_r, h]
  · rw [scale_g, scale_g, h]
  · rw [scale_b, scale_b, h]

end Sys2Proof.Machine
end

section
/-! The FrameEncoder: a frame as chunks of equal length, its bytes in closed form, and the frames in which every scaled
channel is black (spec/42_frameencoder.md R87 to R91). -/

namespace Sys2Proof.Machine

/-! The reorderer (R87, R88). -/

theorem encodePixel_grb (b : Build) (t : Triple) :
    encodePixel b t .grb = encodeByte b t.g ++ encodeByte b t.r ++ encodeByte b t.b := by
  simp [encodePixel, slots]

theorem encodePixel_rgb (b : Build) (t : Triple) :
    encodePixel b t .rgb = encodeByte b t.r ++ encodeByte b t.g ++ encodeByte b t.b := by
  simp [encodePixel, slots]

/-- Settles O36: blue ends both outputs, so they are equal where the first eight bytes, the waveforms of green and red, are. -/
theorem ordersDifferExactlyWhereRedAndGreenDo : Obligations.OrdersDifferExactlyWhereRedAndGreenDo := by
  intro b t h
  obtain ⟨hb, -, -⟩ := b.wf_iff.1 h
  refine ⟨encodePixel_grb b t, encodePixel_rgb b t, fun heq => ?_, fun heq => ?_⟩
  · rw [encodePixel_grb, encodePixel_rgb, List.append_left_inj] at heq
    have hlen : (encodeByte b t.g).length = (encodeByte b t.r).length := by simp only [encodeByte_length]
    exact (encodeByte_injective hb (List.append_inj_left heq hlen)).symm
  · rw [encodePixel_grb, encodePixel_rgb, heq]

/-! Byte k of a frame (R90). -/

/-- In a list of chunks of `n` elements each, element k is number `k % n` of chunk `k / n`. -/
theorem getElem?_flatMap_of_length_eq {α β : Type} {f : α → List β} {n : Nat} (hn : 0 < n) (hf : ∀ a, (f a).length = n)
    (l : List α) (k : Nat) : (l.flatMap f)[k]? = l[k / n]?.bind fun a => (f a)[k % n]? := by
  induction l generalizing k with
  | nil => rfl
  | cons a l ih =>
    rw [List.flatMap_cons]
    obtain hk | hk := Nat.lt_or_ge k n
    · rw [List.getElem?_append_left (by rwa [hf]), Nat.div_eq_of_lt hk, Nat.mod_eq_of_lt hk]
      rfl
    · rw [List.getElem?_append_right (by rwa [hf]), hf, ih, Nat.div_eq_sub_div hn hk, Nat.mod_eq_sub_mod hk]
      rfl

/-- R88: the channel of `t` in slot `i` of the three. -/
def slotChannel (t : Triple) (order : Order) (i : Nat) : Byte :=
  if i = 2 then t.b
  else if i = 0 then (if order = .grb then t.g else t.r)
  else (if order = .grb then t.r else t.g)

theorem slots_getElem? (t : Triple) (order : Order) {i : Nat} (hi : i < 3) :
    (slots t order)[i]? = some (slotChannel t order i) := by
  cases order <;> interval_cases i <;> rfl

/-- SCALE treats the channels alike, so it may follow the reorderer. -/
theorem slotChannel_scale (c : Color) (order : Order) (brt : BitVec 9) (i : Nat) :
    slotChannel (scale c brt) order i = scaleChannel (slotChannel (unpack c) order i) brt := by
  simp only [slotChannel, scale_r, scale_g, scale_b, apply_ite (scaleChannel · brt)]

theorem encodePixel_getElem? (b : Build) (t : Triple) (order : Order) {j : Nat} (hj : j < 24) :
    (encodePixel b t order)[j]? = (encodeByte b (slotChannel t order (j / 8)))[j % 8]? := by
  rw [encodePixel, getElem?_flatMap_of_length_eq (by decide) (encodeByte_length b), slots_getElem? t order (by omega)]
  rfl

theorem encodeFrame_getElem? (b : Build) {px : List Color} (order : Order) (brt : BitVec 9) {k : Nat} {c : Color}
    (hc : px[k / 24]? = some c) : (encodeFrame b px order brt)[k]? = (encodePixel b (scale c brt) order)[k % 24]? := by
  rw [encodeFrame, getElem?_flatMap_of_length_eq (by decide) fun c => encodePixel_length b (scale c brt) order, hc]
  rfl

/-- Settles O37: k names a pixel, then a slot in it, then a PulseByte in that slot. -/
theorem frameByteClosedForm : Obligations.FrameByteClosedForm := by
  intro b px order brt k c hbrt hc t ch
  have hbyte : k % 24 % 8 = k % 8 := Nat.mod_mod_of_dvd k (by decide)
  have hbit : (scaleChannel ch brt).getLsbD (7 - k % 8) = (ch.toNat * brt.toNat / 256).testBit (7 - k % 8) := by
    rw [← BitVec.testBit_toNat, scaleChannel_toNat ch hbrt]
  calc (encodeFrame b px order brt)[k]?
      = (encodePixel b (scale c brt) order)[k % 24]? := encodeFrame_getElem? b order brt hc
    _ = (encodeByte b (slotChannel (scale c brt) order (k % 24 / 8)))[k % 24 % 8]? :=
        encodePixel_getElem? b _ order (Nat.mod_lt k (by decide))
    _ = (encodeByte b (scaleChannel ch brt))[k % 8]? := by rw [hbyte, slotChannel_scale]; rfl
    _ = some (if (ch.toNat * brt.toNat / 256).testBit (7 - k % 8) then b.pulseOne else b.pulseZero) := by
        rw [encodeByte_getElem? b _ (Nat.mod_lt k (by decide)), hbit]

/-! The length of a frame (R91). -/

/-- Settles O38: the bounds are 24 N at N = 1 and at N = 32767. -/
theorem frameHasTwentyFourBytesPerPixel : Obligations.FrameHasTwentyFourBytesPerPixel := by
  intro b px order brt
  have hlen := encodeFrame_length b px order brt
  exact ⟨hlen, fun hmin hmax => by omega⟩

/-! Brightness 0, brightness 256 and black pixels (R89, R148). -/

/-- The Triple of the Color 0x000000. -/
def blackTriple : Triple := ⟨0#8, 0#8, 0#8⟩

theorem unpack_black : unpack 0#24 = blackTriple := by decide

theorem scale_brt_zero (c : Color) : scale c 0#9 = blackTriple := by
  simp [scale, blackTriple]

theorem scale_brt_full (c : Color) : scale c 256#9 = unpack c := by
  simp [scale]

theorem scale_black (brt : BitVec 9) : scale 0#24 brt = blackTriple := by
  simp [scale, unpack_black, blackTriple]

theorem mem_slots_black {order : Order} {v : Byte} (h : v ∈ slots blackTriple order) : v = 0#8 := by
  cases order <;> simpa [slots, blackTriple] using h

/-- No bit of 0 is set, so no PulseByte of its waveform is PULSE_ONE. -/
theorem mem_encodeByte_zero {b : Build} {w : Byte} (h : w ∈ encodeByte b 0#8) : w = b.pulseZero := by
  obtain ⟨i, hi⟩ := List.mem_iff_getElem?.1 h
  obtain ⟨hlt, -⟩ := List.getElem?_eq_some_iff.1 hi
  rw [encodeByte_getElem? b _ (by simpa using hlt)] at hi
  simpa using hi.symm

theorem encodeFrame_eq_zeroPulses (b : Build) {px : List Color} (order : Order) {brt : BitVec 9}
    (h : ∀ c ∈ px, scale c brt = blackTriple) :
    encodeFrame b px order brt = List.replicate (24 * px.length) b.pulseZero := by
  refine List.eq_replicate_iff.2 ⟨encodeFrame_length b px order brt, fun w hw => ?_⟩
  obtain ⟨c, hc, hpixel⟩ := List.mem_flatMap.1 hw
  rw [h c hc] at hpixel
  obtain ⟨v, hv, hbyte⟩ := List.mem_flatMap.1 hpixel
  rw [mem_slots_black hv] at hbyte
  exact mem_encodeByte_zero hbyte

/-- Settles O39: brightness 0 and black pixels both scale every pixel to black, and brightness 256 scales none. -/
theorem frameAtTheEndsOfTheBrightnessRange : Obligations.FrameAtTheEndsOfTheBrightnessRange := by
  intro b px order
  refine ⟨encodeFrame_eq_zeroPulses b order fun c _ => scale_brt_zero c, ?_, fun n brt => ?_⟩
  · simp only [encodeFrame, scale_brt_full]
  · have hblack : ∀ c ∈ List.replicate n 0#24, scale c brt = blackTriple :=
      fun c hc => List.eq_of_mem_replicate hc ▸ scale_black brt
    have hframe := encodeFrame_eq_zeroPulses b order hblack
    rwa [List.length_replicate] at hframe

end Sys2Proof.Machine
end

section
/-! The controller, the state machine (spec/43_controller.md section 5): what the invariant implies of the call in progress,
that every step keeps the invariant, and the transitions of R117. -/

namespace Sys2Proof.Machine

/-! The invariant, phase by phase. -/

section Phase
variable {s : State}

theorem State.phaseOk_idle (h : s.fsm = .idle) :
    s.phaseOk ↔ s.tx = none ∧ s.rst = false ∧ (s.pending = none ∨ s.pending = some .closing ∧ s.rsp = []) := by
  simp only [State.phaseOk, h]

theorem State.phaseOk_closed (h : s.fsm = .closed) :
    s.phaseOk ↔ s.tx = none ∧ (s.pending = none ∨ s.pending = some .opening ∧ s.rst = false ∧ s.rsp = []) := by
  simp only [State.phaseOk, h]

theorem State.phaseOk_gapwait (h : s.fsm = .gapwait) :
    s.phaseOk ↔ s.tx = none ∧ s.rst = false ∧ s.pending = none ∧ s.rsp = [] ∧ s.gapCnt ≠ 0 := by
  simp only [State.phaseOk, h]

theorem State.phaseOk_transmit (h : s.fsm = .transmit) :
    s.phaseOk ↔ s.gapCnt = 0 ∧ s.rst = false ∧ s.rsp = [] ∧
      ∃ t p, s.tx = some t ∧ s.pending = some p ∧ t.fits s.frame p := by
  simp only [State.phaseOk, h]

/-- Out of reset only the range of GAP_CNT and the phase depend on more than the settings. -/
theorem State.Inv.of_settings {t : State} (h : s.Inv) (hset : t.settings = s.settings) (hgap : t.gapCnt ≤ t.build.gapTicks)
    (hrst : t.rst = false) (hphase : t.phaseOk) : t.Inv := by
  obtain ⟨hx, hbrt, -, -, hbuild⟩ := (State.settings_eq_iff t s).1 hset
  exact
    { pixels := by rw [State.count, hx]; exact h.pixels
      build := by rw [hbuild]; exact h.build
      brt := by rw [hbrt]; exact h.brt
      gap := hgap
      inReset := fun hr => absurd (hr.symm.trans hrst) (by decide)
      phase := hphase }

/-- Of a core that waits for an answer: T_OPEN belongs to CLOSED, T_CLOSE to IDLE, the calls of SHOW to TRANSMIT; the core is
out of reset and no response is untaken. -/
theorem State.Inv.pending_cases {p : Pending} (h : s.Inv) (hp : s.pending = some p) :
    s.rst = false ∧ s.rsp = [] ∧
      (s.fsm = .closed ∧ s.tx = none ∧ p = .opening ∨
       s.fsm = .idle ∧ s.tx = none ∧ p = .closing ∨
       s.fsm = .transmit ∧ s.gapCnt = 0 ∧ ∃ t, s.tx = some t ∧ t.fits s.frame p) := by
  have hphase := h.phase
  cases hf : s.fsm with
  | idle =>
    obtain ⟨htx, hrst, hn | ⟨hc, hrsp⟩⟩ := (State.phaseOk_idle hf).1 hphase
    · exact nomatch hn.symm.trans hp
    · exact ⟨hrst, hrsp, .inr (.inl ⟨rfl, htx, Option.some.inj (hp.symm.trans hc)⟩)⟩
  | closed =>
    obtain ⟨htx, hn | ⟨ho, hrst, hrsp⟩⟩ := (State.phaseOk_closed hf).1 hphase
    · exact nomatch hn.symm.trans hp
    · exact ⟨hrst, hrsp, .inl ⟨rfl, htx, Option.some.inj (hp.symm.trans ho)⟩⟩
  | gapwait =>
    obtain ⟨-, -, hn, -⟩ := (State.phaseOk_gapwait hf).1 hphase
    exact nomatch hn.symm.trans hp
  | transmit =>
    obtain ⟨hgap, hrst, hrsp, t, p', htx, hp', hfits⟩ := (State.phaseOk_transmit hf).1 hphase
    cases hp.symm.trans hp'
    exact ⟨hrst, hrsp, .inr (.inr ⟨rfl, hgap, t, htx, hfits⟩)⟩

end Phase

/-! What keeps the invariant. -/

namespace State.Inv
variable {s : State} (h : s.Inv)
include h

theorem countDown (hgap : s.fsm = .gapwait → 1 < s.gapCnt) : s.countDown.Inv where
  pixels := h.pixels
  build := h.build
  brt := h.brt
  gap := (Nat.sub_le _ _).trans h.gap
  inReset := h.inReset
  phase := by
    have hphase := h.phase
    cases hf : s.fsm with
    | idle => exact Iff.mpr (State.phaseOk_idle hf) ((State.phaseOk_idle hf).1 hphase)
    | closed => exact Iff.mpr (State.phaseOk_closed hf) ((State.phaseOk_closed hf).1 hphase)
    | gapwait =>
      obtain ⟨htx, hrst, hp, hrsp, -⟩ := (State.phaseOk_gapwait hf).1 hphase
      exact Iff.mpr (State.phaseOk_gapwait hf) ⟨htx, hrst, hp, hrsp, Nat.sub_ne_zero_of_lt (hgap hf)⟩
    | transmit =>
      obtain ⟨hz, hrst, hrsp, htx⟩ := (State.phaseOk_transmit hf).1 hphase
      exact Iff.mpr (State.phaseOk_transmit hf) ⟨by rw [State.countDown_gapCnt, hz], hrst, hrsp, htx⟩

/-- R106: T_BEGIN is called out of reset with GAP_CNT = 0 and no response untaken. -/
theorem beginTransaction {t : State} (hset : t.settings = s.settings) (hgap : t.gapCnt = 0) (hrst : t.rst = false)
    (hrsp : t.rsp = []) : t.beginTransaction.Inv :=
  h.of_settings hset (hgap.le.trans (Nat.zero_le _)) hrst
    (Iff.mpr (State.phaseOk_transmit rfl) ⟨hgap, hrst, hrsp, _, _, rfl, rfl, rfl, rfl⟩)

theorem tick : s.tick.Inv := by
  obtain ⟨hf, hgap, ht⟩ | ⟨hplain, ht⟩ := s.tick_cases
  · obtain ⟨-, hrst, -, hrsp, -⟩ := (State.phaseOk_gapwait hf).1 h.phase
    rw [ht]
    exact h.beginTransaction rfl (Nat.sub_eq_zero_of_le hgap) hrst hrsp
  · rw [ht]
    exact h.countDown fun hf => not_le.1 fun hle => hplain ⟨hf, hle⟩

theorem log (ev : TransportEvent) : (s.log ev).Inv := ⟨h.pixels, h.build, h.brt, h.gap, h.inReset, h.phase⟩

theorem writeFrame (hf : s.fsm = .transmit) : s.writeFrame.Inv := by
  obtain ⟨hgap, hrst, hrsp, -⟩ := (State.phaseOk_transmit hf).1 h.phase
  exact h.of_settings rfl h.gap hrst
    (Iff.mpr (State.phaseOk_transmit hf) ⟨hgap, hrst, hrsp, _, _, rfl, rfl, rfl, Nat.zero_le _⟩)

theorem finishShow (hrst : s.rst = false) (st : Status) : (s.finishShow st).Inv :=
  h.of_settings rfl le_rfl hrst (Iff.mpr (State.phaseOk_idle rfl) ⟨rfl, hrst, .inl rfl⟩)

/-- R109, R111 (ii): T_WRITE leaves the frame in the buffer; answered ok, it leaves SEQ at the frame's length. -/
theorem endTransaction (hf : s.fsm = .transmit) (hp : s.pending = some .writing) (good : Bool) :
    (s.endTransaction good).Inv := by
  obtain ⟨hgap, hrst, hrsp, -⟩ := (State.phaseOk_transmit hf).1 h.phase
  obtain ⟨u, htx, hbuf, hseq⟩ := h.writing hp
  refine h.of_settings rfl h.gap hrst (Iff.mpr (State.phaseOk_transmit hf) ⟨hgap, hrst, hrsp, ?_⟩)
  cases good with
  | true => exact ⟨⟨u.buf, u.buf.length⟩, _, by simp [htx], rfl, hbuf, congrArg List.length hbuf⟩
  | false => exact ⟨u, _, by simp [htx], rfl, hbuf, hseq⟩

theorem answer (ok : Bool) : (s.answer ok).Inv := by
  cases hp : s.pending with
  | none => rwa [State.answer_none ok hp]
  | some p =>
    obtain ⟨hrst, -, ⟨hf, htx, rfl⟩ | ⟨hf, htx, rfl⟩ | ⟨hf, -, u, -, hfits⟩⟩ := h.pending_cases hp
    · rw [State.answer_opening ok hp]
      refine h.of_settings rfl h.gap hrst ?_
      cases ok with
      | true => exact Iff.mpr (State.phaseOk_idle rfl) ⟨htx, hrst, .inl rfl⟩
      | false => exact Iff.mpr (State.phaseOk_closed rfl) ⟨htx, .inl rfl⟩
    · rw [State.answer_closing ok hp]
      exact h.of_settings rfl h.gap hrst (Iff.mpr (State.phaseOk_closed rfl) ⟨htx, .inl rfl⟩)
    · cases p with
      | opening => exact hfits.elim
      | closing => exact hfits.elim
      | beginning =>
        rw [State.answer_beginning ok hp]
        cases ok with
        | true => exact (h.log _).writeFrame hf
        | false => exact (h.log _).finishShow hrst _
      | writing =>
        rw [State.answer_writing ok hp]
        exact (h.log _).endTransaction hf hp ok
      | ending good =>
        rw [State.answer_ending ok hp]
        exact (h.log _).finishShow hrst _

theorem takeByte : s.takeByte.Inv := by
  obtain ⟨u, hp, htx, hb⟩ | hb := s.takeByte_cases
  · obtain ⟨hrst, hrsp, ⟨-, -, hno⟩ | ⟨-, -, hno⟩ | ⟨hf, hgap, u', htx', hbuf, -⟩⟩ := h.pending_cases hp
    · cases hno
    · cases hno
    · cases htx.symm.trans htx'
      rw [hb]
      refine h.of_settings rfl h.gap hrst (Iff.mpr (State.phaseOk_transmit hf) ⟨hgap, hrst, hrsp, _, _, rfl, hp, hbuf, ?_⟩)
      exact (Nat.min_le_right _ _).trans (congrArg List.length hbuf).le
  · rwa [hb]

/-- The response port may change where no call is unanswered and the core is out of reset. -/
theorem setRsp (rsp taken : List RspWord) (hrst : s.rst = false) (hp : s.pending = none) (hf : s.fsm ≠ .gapwait) :
    ({ s with rsp := rsp, taken := taken } : State).Inv := by
  refine h.of_settings rfl h.gap hrst ?_
  have hphase := h.phase
  cases hf' : s.fsm with
  | idle =>
    obtain ⟨htx, -, -⟩ := (State.phaseOk_idle hf').1 hphase
    exact Iff.mpr (State.phaseOk_idle rfl) ⟨htx, hrst, .inl hp⟩
  | closed =>
    obtain ⟨htx, -⟩ := (State.phaseOk_closed hf').1 hphase
    exact Iff.mpr (State.phaseOk_closed rfl) ⟨htx, .inl hp⟩
  | gapwait => exact absurd hf' hf
  | transmit =>
    obtain ⟨-, -, -, t, p, -, hp', -⟩ := (State.phaseOk_transmit hf').1 hphase
    exact nomatch hp.symm.trans hp'

theorem takeResponse : s.takeResponse.Inv := by
  cases hrsp : s.rsp with
  | nil => rwa [State.takeResponse_nil hrsp]
  | cons r rs =>
    have hne : s.rsp ≠ [] := by rw [hrsp]; exact List.cons_ne_nil r rs
    have hrst : s.rst = false := by
      refine Bool.eq_false_iff.2 fun hr => ?_
      obtain ⟨-, -, hnil⟩ := h.inReset hr
      exact hne hnil
    have hp : s.pending = none := by
      refine Option.eq_none_iff_forall_ne_some.2 fun p hp => ?_
      obtain ⟨-, hnil, -⟩ := h.pending_cases hp
      exact hne hnil
    have hf : s.fsm ≠ .gapwait := by
      intro hf
      obtain ⟨-, -, -, hnil, -⟩ := (State.phaseOk_gapwait hf).1 h.phase
      exact hne hnil
    rw [State.takeResponse_cons hrsp]
    exact h.setRsp _ _ hrst hp hf

theorem assertReset : s.assertReset.Inv where
  pixels := h.pixels
  build := h.build
  brt := h.brt
  gap := h.gap
  inReset := fun _ => ⟨rfl, rfl, rfl⟩
  phase := Iff.mpr (State.phaseOk_closed rfl) ⟨rfl, .inl rfl⟩

theorem releaseReset (order : Order) (freq : FreqClass) : (s.releaseReset order freq).Inv := by
  cases hr : s.rst with
  | false => rwa [State.releaseReset_idle order freq hr]
  | true =>
    rw [State.releaseReset_of order freq hr]
    exact
      { pixels := by rw [State.count, List.length_replicate]; exact h.pixels
        build := h.build
        brt := le_rfl
        gap := le_rfl
        inReset := nofun
        phase := Iff.mpr (State.phaseOk_closed rfl) ⟨rfl, .inr ⟨rfl, rfl, rfl⟩⟩ }

theorem react (e : Input) : (s.react e).Inv := by
  cases e with
  | tick => exact h.tick
  | answer ok => exact h.answer ok
  | takeByte => exact h.takeByte
  | word w => exact ⟨h.pixels, h.build, h.brt, h.gap, h.inReset, h.phase⟩
  | takeResponse => exact h.takeResponse
  | rstAssert => exact h.assertReset
  | rstRelease orderI freqI => exact h.releaseReset _ _

theorem ready_setRsp (hr : s.ready = true) (rsp : List RspWord) : ({ s with rsp := rsp } : State).Inv := by
  obtain ⟨hrst, hf, hp, -⟩ := s.ready_iff.1 hr
  exact h.setRsp rsp s.taken hrst hp (by rintro hg; simp [hg] at hf)

/-- A command accepted in IDLE may write x, at its length, and BRT, in its range. -/
theorem idle_write (hf : s.fsm = .idle) {x : List Color} {brt : BitVec 9} (hx : x.length = s.x.length)
    (hbrt : brt.toNat ≤ 256) : ({ s with x := x, brt := brt } : State).Inv where
  pixels := by rw [State.count, hx]; exact h.pixels
  build := h.build
  brt := hbrt
  gap := h.gap
  inReset := h.inReset
  phase := Iff.mpr (State.phaseOk_idle hf) ((State.phaseOk_idle hf).1 h.phase)

theorem startShow (hr : s.ready = true) (hf : s.fsm = .idle) : s.startShow.Inv := by
  obtain ⟨htx, -⟩ := (State.phaseOk_idle hf).1 h.phase
  have hrst := State.ready_rst hr
  have hrsp := State.ready_rsp hr
  have hp := State.ready_pending hr
  unfold State.startShow
  split
  · next hgap => exact h.beginTransaction rfl hgap hrst hrsp
  · next hgap =>
    exact h.of_settings rfl h.gap hrst (Iff.mpr (State.phaseOk_gapwait rfl) ⟨htx, hrst, hp, hrsp, hgap⟩)

theorem closing (hr : s.ready = true) (hf : s.fsm = .idle) : (s.request .closing .tClose).Inv := by
  obtain ⟨htx, hrst, -⟩ := (State.phaseOk_idle hf).1 h.phase
  have hrsp := State.ready_rsp hr
  exact h.of_settings rfl h.gap hrst (Iff.mpr (State.phaseOk_idle hf) ⟨htx, hrst, .inr ⟨rfl, hrsp⟩⟩)

end State.Inv

theorem inv_kept : Kept State.Inv where
  inputs _ _ h := ⟨h.pixels, h.build, h.brt, h.gap, h.inReset, h.phase⟩
  offered _ _ h := ⟨h.pixels, h.build, h.brt, h.gap, h.inReset, h.phase⟩
  react _ e h := h.react e
  raise _ _ h hr _ := h.ready_setRsp hr _
  respond _ _ h hr _ := h.ready_setRsp hr _
  respondAll _ _ h hr _ := h.ready_setRsp hr _
  writePixel _ _ _ h _ hf _ := h.idle_write hf List.length_set h.brt
  writeBrt _ _ h _ hf hv := h.idle_write hf rfl hv
  startShow _ h hr hf := h.startShow hr hf
  closing _ h hr hf := h.closing hr hf

/-- Settles O49: every operation of the machine keeps the invariant, hence every step does. -/
theorem stepKeepsTheInvariant : Obligations.StepKeepsTheInvariant :=
  fun _ _ h hst => inv_kept.step h hst

/-! The transitions of FSM (R117). -/

/-- The rows of R117's table: `s` moves to `t` on the input `e`. -/
def State.FsmMoves (s : State) (e : Input) (t : State) : Prop :=
  (s.fsm = .gapwait ∧ e = .tick ∧ t.gapCnt = 0 ∧ t.fsm = .transmit) ∨
  (s.fsm = .transmit ∧
    (s.pending = some .beginning ∧ e = .answer false ∨ ∃ good ok, s.pending = some (.ending good) ∧ e = .answer ok) ∧
    t.gapCnt = s.build.gapTicks ∧ t.fsm = .idle) ∨
  (s.fsm = .idle ∧ s.pending = some .closing ∧ (∃ ok, e = .answer ok) ∧ t.fsm = .closed) ∨
  (s.fsm = .closed ∧ s.pending = some .opening ∧ e = .answer true ∧ t.fsm = .idle) ∨
  (e = .rstAssert ∧ t.rst = true)

/-- The answer that moves FSM is the failed T_BEGIN, any answer to T_END or T_CLOSE, or the ok to T_OPEN. -/
theorem State.Inv.answer_fsm {s : State} (h : s.Inv) (ok : Bool) :
    (s.answer ok).fsm = s.fsm ∨ s.FsmMoves (.answer ok) (s.answer ok) := by
  cases hp : s.pending with
  | none => rw [State.answer_none ok hp]; exact .inl rfl
  | some p =>
    obtain ⟨-, -, ⟨hf, -, rfl⟩ | ⟨hf, -, rfl⟩ | ⟨hf, -, u, -, hfits⟩⟩ := h.pending_cases hp
    · rw [State.answer_opening ok hp]
      cases ok with
      | true => exact .inr (.inr (.inr (.inr (.inl ⟨hf, hp, rfl, rfl⟩))))
      | false => exact .inl hf.symm
    · rw [State.answer_closing ok hp]
      exact .inr (.inr (.inr (.inl ⟨hf, hp, ⟨ok, rfl⟩, rfl⟩)))
    · cases p with
      | opening => exact hfits.elim
      | closing => exact hfits.elim
      | beginning =>
        rw [State.answer_beginning ok hp]
        cases ok with
        | true => exact .inl rfl
        | false => exact .inr (.inr (.inl ⟨hf, .inl ⟨hp, rfl⟩, rfl, rfl⟩))
      | writing => rw [State.answer_writing ok hp]; exact .inl rfl
      | ending good =>
        rw [State.answer_ending ok hp]
        exact .inr (.inr (.inl ⟨hf, .inr ⟨good, ok, hp, rfl⟩, rfl, rfl⟩))

theorem State.takeByte_fsm (s : State) : s.takeByte.fsm = s.fsm := by
  obtain ⟨t, -, -, h⟩ | h := s.takeByte_cases <;> rw [h]

theorem State.takeResponse_fsm (s : State) : s.takeResponse.fsm = s.fsm := by
  cases h : s.rsp with
  | nil => rw [State.takeResponse_nil h]
  | cons r rs => rw [State.takeResponse_cons h]

/-- Settles O54: only a tick that ends the gap wait, an answer and a reset write FSM; the release of a reset finds it CLOSED
and leaves it so. -/
theorem fsmMovesOnlyAsTheTableSays : Obligations.FsmMovesOnlyAsTheTableSays := by
  intro s e h hne
  cases e with
  | tick =>
    obtain ⟨hf, hgap, ht⟩ | ⟨-, ht⟩ := s.tick_cases
    · have hreact : s.react .tick = s.countDown.beginTransaction := ht
      rw [hreact]
      exact .inl ⟨hf, rfl, Nat.sub_eq_zero_of_le hgap, rfl⟩
    · exact absurd (congrArg State.fsm ht) hne
  | answer ok => exact (h.answer_fsm ok).resolve_left hne
  | takeByte => exact absurd s.takeByte_fsm hne
  | word w => exact absurd rfl hne
  | takeResponse => exact absurd s.takeResponse_fsm hne
  | rstAssert => exact .inr (.inr (.inr (.inr ⟨rfl, rfl⟩)))
  | rstRelease orderI freqI =>
    cases hr : s.rst with
    | false => exact absurd (congrArg State.fsm (State.releaseReset_idle _ _ hr)) hne
    | true =>
      have hf : (s.react (.rstRelease orderI freqI)).fsm = .closed := congrArg State.fsm (State.releaseReset_of _ _ hr)
      exact absurd (hf.trans (h.inReset hr).1.symm) hne

end Sys2Proof.Machine
end

section
/-! The controller, what an input adds (spec/43_controller.md sections 3 and 4): words offered, calls and answers, responses
taken.  From it, that a word waits until the core is ready (R115) and that every T_WRITE carries a whole frame (R108). -/

namespace Sys2Proof.Machine

/-- The entries `new` are what one input adds to the trace of `s`: a T_WRITE among them carries the frame of `s` (R107). -/
def State.LogsFrames (s : State) (new : List TraceEntry) : Prop :=
  ∀ a ∈ new, ∀ bytes, a.event = .call (.tWrite bytes) → bytes = s.frame

/-- What every input keeps of the ports: words are only added to those offered, events only to the trace; a response is taken
only where one is untaken; a command that goes on running has sent none; and only a reset moves `rst`, which ends the command
where it asserts `rst`. -/
structure State.Extends (s : State) (e : Input) (t : State) : Prop where
  offered : s.offered <+: t.offered
  trace : ∃ new, t.trace = s.trace ++ new ∧ s.LogsFrames new
  taken : s.rsp = [] → t.taken = s.taken
  rsp : t.inCommand = true → s.rsp = [] → t.rsp = []
  rst : e.noReset = true ∨ t.inCommand = true ∧ s.rst = false → t.rst = s.rst

/-- Most inputs leave the words offered, the responses taken and `rst` alone. -/
theorem State.Extends.of_log {s t : State} {e : Input} (new : List TraceEntry) (htrace : t.trace = s.trace ++ new)
    (hnew : s.LogsFrames new) (hrsp : t.inCommand = true → s.rsp = [] → t.rsp = []) (hoff : t.offered = s.offered)
    (htaken : t.taken = s.taken) (hrst : t.rst = s.rst) : s.Extends e t :=
  ⟨⟨[], by rw [hoff, List.append_nil]⟩, ⟨new, htrace, hnew⟩, fun _ => htaken, hrsp, fun _ => hrst⟩

theorem State.Extends.of_no_log {s t : State} {e : Input} (htrace : t.trace = s.trace)
    (hrsp : t.inCommand = true → s.rsp = [] → t.rsp = []) (hoff : t.offered = s.offered) (htaken : t.taken = s.taken)
    (hrst : t.rst = s.rst) : s.Extends e t :=
  .of_log [] (by rw [htrace, List.append_nil]) nofun hrsp hoff htaken hrst

theorem State.Extends.refl (s : State) (e : Input) : s.Extends e s := .of_no_log rfl (fun _ => id) rfl rfl rfl

theorem State.tick_extends (s : State) : s.Extends .tick s.tick := by
  obtain ⟨-, -, h⟩ | ⟨-, h⟩ := s.tick_cases
  · rw [h]; exact .of_log [_] rfl (by simp [State.LogsFrames]) (fun _ => id) rfl rfl rfl
  · rw [h]; exact .of_no_log rfl (fun _ => id) rfl rfl rfl

/-- An answer ends the reset sequence or the command, or the next call of the SHOW follows it. -/
theorem State.answer_extends (s : State) (ok : Bool) : s.Extends (.answer ok) (s.answer ok) := by
  cases hp : s.pending with
  | none => rw [State.answer_none ok hp]; exact .refl s _
  | some p =>
    cases p with
    | opening =>
      rw [State.answer_opening ok hp]
      exact .of_log [_] rfl (by simp [State.LogsFrames]) (fun _ => id) rfl rfl rfl
    | beginning =>
      rw [State.answer_beginning ok hp]
      cases ok with
      | true =>
        exact .of_log [_, _] (List.append_assoc ..) (by simp [State.LogsFrames, State.frame]) (fun _ => id) rfl rfl rfl
      | false => exact .of_log [_] rfl (by simp [State.LogsFrames]) nofun rfl rfl rfl
    | writing =>
      rw [State.answer_writing ok hp]
      exact .of_log [_, _] (List.append_assoc ..) (by simp [State.LogsFrames]) (fun _ => id) rfl rfl rfl
    | ending good =>
      rw [State.answer_ending ok hp]
      exact .of_log [_] rfl (by simp [State.LogsFrames]) nofun rfl rfl rfl
    | closing =>
      rw [State.answer_closing ok hp]
      exact .of_log [_] rfl (by simp [State.LogsFrames]) nofun rfl rfl rfl

theorem State.takeByte_extends (s : State) : s.Extends .takeByte s.takeByte := by
  obtain ⟨t, -, -, h⟩ | h := s.takeByte_cases
  · rw [h]; exact .of_no_log rfl (fun _ => id) rfl rfl rfl
  · rw [h]; exact .refl s _

theorem State.offer_extends (s : State) (w : CmdWord) : s.Extends (.word w) (s.offer w) :=
  ⟨⟨[w], rfl⟩, ⟨[], (List.append_nil _).symm, nofun⟩, fun _ => rfl, fun _ => id, fun _ => rfl⟩

theorem State.takeResponse_extends (s : State) : s.Extends .takeResponse s.takeResponse := by
  cases h : s.rsp with
  | nil => rw [State.takeResponse_nil h]; exact .refl s _
  | cons r rs =>
    have hne : s.rsp ≠ [] := by rw [h]; exact List.cons_ne_nil r rs
    rw [State.takeResponse_cons h]
    exact ⟨⟨[], List.append_nil _⟩, ⟨[], (List.append_nil _).symm, nofun⟩, (absurd · hne), fun _ => (absurd · hne),
      fun _ => rfl⟩

theorem State.assertReset_extends (s : State) : s.Extends .rstAssert s.assertReset :=
  ⟨⟨[], List.append_nil _⟩, ⟨[], (List.append_nil _).symm, nofun⟩, fun _ => rfl, nofun, nofun⟩

theorem State.releaseReset_extends (s : State) (orderI freqI : BitVec 1) :
    s.Extends (.rstRelease orderI freqI) (s.releaseReset (orderOfCode orderI) (freqOfCode freqI)) := by
  cases h : s.rst with
  | false => rw [State.releaseReset_idle _ _ h]; exact .refl s _
  | true =>
    rw [State.releaseReset_of _ _ h]
    exact ⟨⟨[], List.append_nil _⟩, ⟨[_], rfl, by simp [State.LogsFrames]⟩, fun _ => rfl, nofun, nofun⟩

theorem State.react_extends (s : State) (e : Input) : s.Extends e (s.react e) := by
  cases e with
  | tick => exact s.tick_extends
  | answer ok => exact s.answer_extends ok
  | takeByte => exact s.takeByte_extends
  | word w => exact s.offer_extends w
  | takeResponse => exact s.takeResponse_extends
  | rstAssert => exact s.assertReset_extends
  | rstRelease orderI freqI => exact s.releaseReset_extends orderI freqI

/-! A word waits until the core is ready (R115). -/

theorem State.environment_offered (s : State) : s.offered <+: s.environment.offered := by
  cases hin : s.inputs with
  | nil => rw [State.environment_nil hin]; exact s.tick_extends.offered
  | cons e es => rw [State.environment_cons hin]; exact (State.react_extends { s with inputs := es } e).offered

/-- Settles O7: a core that is not ready fetches no word, so its step is a move of the environment. -/
theorem commandWaitsUntilTheCoreIsReady : Obligations.CommandWaitsUntilTheCoreIsReady := by
  intro s
  constructor
  · rw [State.ready_iff, and_left_comm]
  · intro hr
    exact ⟨_, step_of_fetch_none (State.fetch_none_of (.inl hr)), s.environment_offered⟩

/-! Every T_WRITE carries a whole frame (R90, R91, R108). -/

theorem State.frame_isFrameOf (s : State) : IsFrameOf s.build s.count s.frame :=
  ⟨encodeFrame_length .., fun _ => encodeFrame_pulse⟩

/-- N and the build stay, and a T_WRITE that is added carries the frame of the state before it. -/
theorem State.WritesAreFrames.extend {s t : State} (hs : s.WritesAreFrames) (hmade : t.MadeWith s.count s.build)
    {new : List TraceEntry} (htrace : t.trace = s.trace ++ new) (hnew : s.LogsFrames new) : t.WritesAreFrames := by
  intro a ha bytes hw
  rw [hmade.2, State.count, hmade.1]
  rw [htrace, List.mem_append] at ha
  obtain hold | hadd := ha
  · exact hs a hold bytes hw
  · exact hnew a hadd bytes hw ▸ s.frame_isFrameOf

theorem State.WritesAreFrames.react {s : State} (hs : s.WritesAreFrames) (e : Input) : (s.react e).WritesAreFrames := by
  obtain ⟨new, htrace, hnew⟩ := (s.react_extends e).trace
  exact hs.extend (State.MadeWith.react ⟨rfl, rfl⟩ e) htrace hnew

theorem State.WritesAreFrames.startShow {s : State} (hs : s.WritesAreFrames) : s.startShow.WritesAreFrames := by
  unfold State.startShow
  split
  · exact hs.extend ⟨rfl, rfl⟩ rfl (by simp [State.LogsFrames])
  · exact hs

theorem writesAreFrames_kept : Kept State.WritesAreFrames where
  inputs _ _ hs := hs
  offered _ _ hs := hs
  react _ e hs := hs.react e
  raise _ _ hs _ _ := hs
  respond _ _ hs _ _ := hs
  respondAll _ _ hs _ _ := hs
  writePixel _ _ _ hs _ _ _ := hs.extend ⟨List.length_set, rfl⟩ (List.append_nil _).symm nofun
  writeBrt _ _ hs _ _ _ := hs
  startShow _ hs _ _ := hs.startShow
  closing _ hs _ _ := hs.extend ⟨rfl, rfl⟩ rfl (by simp [State.LogsFrames])

/-- Settles O51: every operation that calls T_WRITE calls it with a whole frame, hence every step does. -/
theorem stepWritesOnlyWholeFrames : Obligations.StepWritesOnlyWholeFrames :=
  fun _ _ hs h => writesAreFrames_kept.step hs h

end Sys2Proof.Machine
end

section
/-! The controller, the commands that do not call the transport (spec/43_controller.md sections 2 and 4): which word a step
runs (R115, R116, R114), and what each of these commands does in IDLE (R97 to R103). -/

namespace Sys2Proof

/-! The words of the formats (R57 to R62). -/

/-- A word with the code of an operation and its MBZ fields clear decodes to that operation. -/
theorem decode_commandWord (o : Opcode) {idx : BitVec 16} {pay : BitVec 40}
    (h : mbzClear (formatOf o) (commandWord (opcodeWord o) idx pay) = true) :
    decode (commandWord (opcodeWord o) idx pay) = .ok (assemble o (commandWord (opcodeWord o) idx pay)) :=
  (decode_ok_iff _ _).2 ⟨o, by rw [opField_commandWord, opcodeOf_opcodeWord], h, rfl⟩

section Payload
variable (op : BitVec 8) (idx : BitVec 16)

theorem icMbzField_commandWord (mbz : BitVec 16) (color : Color) : icMbzField (commandWord op idx (mbz ++ color)) = mbz := by
  apply BitVec.eq_of_toNat_eq
  rw [icMbzField_toNat, commandWord_toNat, toNat_append_eq]
  omega

theorem colorField_commandWord (mbz : BitVec 16) (color : Color) :
    colorField (commandWord op idx (mbz ++ color)) = color := by
  apply BitVec.eq_of_toNat_eq
  rw [colorField_toNat, commandWord_toNat, toNat_append_eq]
  omega

section Channels
variable (mbz : BitVec 4) (r g b : BitVec 12)

theorem commandWord_channels_toNat : (commandWord op idx (mbz ++ r ++ g ++ b)).toNat =
    op.toNat * 2 ^ 56 + idx.toNat * 2 ^ 40 + mbz.toNat * 2 ^ 36 + r.toNat * 2 ^ 24 + g.toNat * 2 ^ 12 + b.toNat := by
  have hpay : (mbz ++ r ++ g ++ b).toNat = ((mbz.toNat * 2 ^ 12 + r.toNat) * 2 ^ 12 + g.toNat) * 2 ^ 12 + b.toNat := by
    rw [toNat_append_eq, toNat_append_eq, toNat_append_eq]
  rw [commandWord_toNat, hpay]
  omega

theorem itMbzField_commandWord : itMbzField (commandWord op idx (mbz ++ r ++ g ++ b)) = mbz := by
  apply BitVec.eq_of_toNat_eq
  rw [itMbzField_toNat, commandWord_channels_toNat]
  omega

theorem redField_commandWord : redField (commandWord op idx (mbz ++ r ++ g ++ b)) = r := by
  apply BitVec.eq_of_toNat_eq
  rw [redField_toNat, commandWord_channels_toNat]
  omega

theorem greenField_commandWord : greenField (commandWord op idx (mbz ++ r ++ g ++ b)) = g := by
  apply BitVec.eq_of_toNat_eq
  rw [greenField_toNat, commandWord_channels_toNat]
  omega

theorem blueField_commandWord : blueField (commandWord op idx (mbz ++ r ++ g ++ b)) = b := by
  apply BitVec.eq_of_toNat_eq
  rw [blueField_toNat, commandWord_channels_toNat]
  omega

end Channels

theorem bMbzField_commandWord (mbz : BitVec 24) (brt : BitVec 16) : bMbzField (commandWord op idx (mbz ++ brt)) = mbz := by
  apply BitVec.eq_of_toNat_eq
  rw [bMbzField_toNat, commandWord_toNat, toNat_append_eq]
  omega

theorem brtField_commandWord (mbz : BitVec 24) (brt : BitVec 16) : brtField (commandWord op idx (mbz ++ brt)) = brt := by
  apply BitVec.eq_of_toNat_eq
  rw [brtField_toNat, commandWord_toNat, toNat_append_eq]
  omega

end Payload

theorem decode_setPixel (idx : BitVec 16) (color : Color) :
    decode (0x01#8 ++ idx ++ 0#16 ++ color) = .ok (.setPixel idx.toInt color) := by
  have hw : 0x01#8 ++ idx ++ 0#16 ++ color = commandWord (opcodeWord .setPixel) idx (0#16 ++ color) :=
    BitVec.append_assoc
  rw [hw, decode_commandWord .setPixel (by simp [mbzClear, formatOf, icMbzField_commandWord]), assemble, idxField_commandWord,
    colorField_commandWord]

theorem decode_setPixelRgb (idx : BitVec 16) (r g b : BitVec 12) :
    decode (0x02#8 ++ idx ++ 0#4 ++ r ++ g ++ b) = .ok (.setPixelRgb idx.toInt r.toInt g.toInt b.toInt) := by
  have hw : 0x02#8 ++ idx ++ 0#4 ++ r ++ g ++ b = commandWord (opcodeWord .setPixelRgb) idx (0#4 ++ r ++ g ++ b) := by
    apply BitVec.eq_of_toNat_eq
    rw [commandWord_channels_toNat]
    simp only [toNat_append_eq, opcodeWord]
    omega
  rw [hw, decode_commandWord .setPixelRgb (by simp [mbzClear, formatOf, itMbzField_commandWord]), assemble,
    idxField_commandWord, redField_commandWord, greenField_commandWord, blueField_commandWord]

theorem decode_getPixel (idx : BitVec 16) : decode (0x03#8 ++ idx ++ 0#40) = .ok (.getPixel idx.toInt) := by
  have h := decode_commandWord .getPixel (idx := idx) (pay := 0#40) (by simp [mbzClear, formatOf])
  rwa [assemble, idxField_commandWord] at h

theorem decode_getPixelColor (idx : BitVec 16) : decode (0x04#8 ++ idx ++ 0#40) = .ok (.getPixelColor idx.toInt) := by
  have h := decode_commandWord .getPixelColor (idx := idx) (pay := 0#40) (by simp [mbzClear, formatOf])
  rwa [assemble, idxField_commandWord] at h

theorem decode_setBrightness (brt : BitVec 16) :
    decode (0x07#8 ++ 0#16 ++ 0#24 ++ brt) = .ok (.setBrightness brt.toInt) := by
  have hw : 0x07#8 ++ 0#16 ++ 0#24 ++ brt = commandWord (opcodeWord .setBrightness) 0#16 (0#24 ++ brt) :=
    BitVec.append_assoc
  rw [hw, decode_commandWord .setBrightness (by simp [mbzClear, formatOf, bMbzField_commandWord]), assemble,
    brtField_commandWord]

namespace Machine

/-! Which word a step runs, and CLOSED (R114 to R116). -/

theorem step_of_ready {s : State} {w : CmdWord} {ws : List CmdWord} {i : Instr} (hr : s.ready = true)
    (ho : s.offered = w :: ws) (hd : decode w = .ok i) : step s = exec i { s with offered := ws } :=
  step_of_decode_ok (State.fetch_of_ready hr ho) hd

/-- Settles O5: the core that is ready fetches the first word offered, and the step runs what it decodes to. -/
theorem stepRunsTheDecodedInstruction : Obligations.StepRunsTheDecodedInstruction :=
  fun _ _ _ _ hr ho hd => step_of_ready hr ho hd

/-- A core that is ready has sent no other response. -/
theorem State.respond_of_ready {s : State} (hr : s.ready = true) (st : Status) (d : BitVec 24) :
    s.respond st d = { s with rsp := [responseWord st d] } :=
  State.respond_of_empty (State.ready_rsp hr) st d

/-- Settles O15: acceptance turns every command away in CLOSED. -/
theorem closedCoreAnswersTransportUnavailable : Obligations.ClosedCoreAnswersTransportUnavailable := by
  intro s i hr hc
  obtain ⟨t, ht⟩ := exec_next i s
  obtain ⟨hn, -⟩ | ⟨-, -, rfl⟩ | ⟨-, hi⟩ := exec_cases ht
  · exact nomatch hr.symm.trans hn
  · exact ht.trans (congrArg _ (State.respond_of_ready hr _ _))
  · exact nomatch hc.symm.trans hi

/-- Settles O6: an illegal word is answered where it is fetched, a legal one in CLOSED by `exec`. -/
theorem illegalWordIsAnsweredIllegalCommand : Obligations.IllegalWordIsAnsweredIllegalCommand := by
  intro s w ws hr ho
  have hr' : ({ s with offered := ws } : State).ready = true := hr
  refine ⟨fun e hd => ?_, fun i hd hc => ?_⟩
  · rw [step_of_decode_error (State.fetch_of_ready hr ho) hd]
    exact congrArg _ (State.respond_of_ready hr' _ _)
  · rw [step_of_ready hr ho hd]
    exact closedCoreAnswersTransportUnavailable _ i hr' hc

/-- Settles O28: such a command writes at most x, BRT and the response port. -/
theorem onlyShowAndCloseCallTheTransport : Obligations.OnlyShowAndCloseCallTheTransport := by
  intro s t i hs hc h
  rw [pixelCommand_effect hs hc h]
  exact ⟨rfl, rfl, rfl⟩

/-! The commands in a core that accepts them in IDLE, one lemma per outcome of their checks (R97 to R103). -/

section Idle
variable {s : State} (hr : s.ready = true) (hi : s.fsm = .idle)
include hr hi

theorem exec_setPixel_cell {index : Int} {i : Nat} (hc : s.cell index = some i) (color : Color) :
    exec (.setPixel index color) s = .next { s with x := s.x.set i color, rsp := [0x00000000#32] } := by
  rw [exec_setPixel, State.accept_idle _ hr hi, hc]
  exact congrArg _ (State.respond_of_ready (s := s.writePixel i color) hr _ _)

theorem exec_setPixel_noCell {index : Int} (hc : s.cell index = none) (color : Color) :
    exec (.setPixel index color) s = .next { s with rsp := [0x20000000#32] } := by
  rw [exec_setPixel, State.accept_idle _ hr hi, hc]
  exact congrArg _ (State.respond_of_ready hr _ _)

theorem exec_setPixelRgb_cell {index r g b : Int} {i : Nat} {color : Color} (hc : s.cell index = some i)
    (hp : pack r g b = some color) :
    exec (.setPixelRgb index r g b) s = .next { s with x := s.x.set i color, rsp := [0x00000000#32] } := by
  rw [exec_setPixelRgb, State.accept_idle _ hr hi, hc, hp]
  exact congrArg _ (State.respond_of_ready (s := s.writePixel i color) hr _ _)

/-- The error that SET_PIXEL_RGB reports for a bad index, a bad channel or both. -/
theorem exec_setPixelRgb_error {index r g b : Int} {e : Status}
    (h : s.cell index = none ∧ (pack r g b).isSome ∧ e = .indexError ∨
      (s.cell index).isSome ∧ pack r g b = none ∧ e = .rangeError ∨
      s.cell index = none ∧ pack r g b = none ∧ e = s.bothErrors) :
    exec (.setPixelRgb index r g b) s = .next { s with rsp := [responseWord e 0] } := by
  rw [exec_setPixelRgb, State.accept_idle _ hr hi]
  obtain ⟨hc, hp, rfl⟩ | ⟨hc, hp, rfl⟩ | ⟨hc, hp, rfl⟩ := h
  · obtain ⟨color, hp⟩ := Option.isSome_iff_exists.1 hp
    rw [hc, hp]
    exact congrArg _ (State.respond_of_ready hr _ _)
  · obtain ⟨i, hc⟩ := Option.isSome_iff_exists.1 hc
    rw [hc, hp]
    exact congrArg _ (State.respond_of_ready hr _ _)
  · rw [hc, hp]
    exact congrArg _ (State.respond_of_ready hr _ _)

/-- R99, R100: the colour put together again from its channels is the stored one, so the two reads answer alike. -/
theorem exec_getPixel_cell {i : Nat} {c : Color} (hc : s.x[i]? = some c) :
    exec (.getPixel i) s = .next { s with rsp := [c.setWidth 32] } ∧
    exec (.getPixelColor i) s = .next { s with rsp := [c.setWidth 32] } := by
  obtain ⟨hlt, -⟩ := List.getElem?_eq_some_iff.1 hc
  have hread : s.readPixel i = c := by rw [State.readPixel, List.getD_eq_getElem?_getD, hc, Option.getD_some]
  rw [exec_getPixel, exec_getPixelColor, State.accept_idle _ hr hi, State.accept_idle _ hr hi, State.cell_ofNat hlt,
    ← responseWord_ok]
  simp only [hread, colorOf_unpack, State.respond_of_ready hr, and_self]

theorem exec_getPixel_noCell {index : Int} (hc : s.cell index = none) :
    exec (.getPixel index) s = .next { s with rsp := [0x20000000#32] } ∧
    exec (.getPixelColor index) s = .next { s with rsp := [0x20000000#32] } := by
  rw [exec_getPixel, exec_getPixelColor, State.accept_idle _ hr hi, State.accept_idle _ hr hi, hc]
  exact ⟨congrArg _ (State.respond_of_ready hr _ _), congrArg _ (State.respond_of_ready hr _ _)⟩

end Idle

/-- Settles O9: the index names a cell exactly where it lies in 0..N-1. -/
theorem setPixelStoresTheColour : Obligations.SetPixelStoresTheColour := by
  refine ⟨decode_setPixel, fun s color hr hi => ⟨fun i hlt => ?_, fun index hbad => ?_⟩⟩
  · exact exec_setPixel_cell hr hi (State.cell_ofNat hlt) color
  · exact exec_setPixel_noCell hr hi (State.cell_bad hbad) color

theorem State.cell_toNat {s : State} {index : Int} (h : ¬ (index < 0 ∨ (s.x.length : Int) ≤ index)) :
    s.cell index = some index.toNat := by
  obtain ⟨i, rfl⟩ := Int.eq_ofNat_of_zero_le (a := index) (by omega)
  exact State.cell_ofNat (by omega)

/-- Settles O10: the index is good where it names a cell and the channels are where PACK gives a colour, which leaves the
four combinations of the command's check. -/
theorem setPixelRgbStoresOrReportsItsError : Obligations.SetPixelRgbStoresOrReportsItsError := by
  refine ⟨decode_setPixelRgb, fun s index r g b hr hi => ?_⟩
  intro idxBad rngBad
  obtain ⟨hpack, hnone⟩ := packGivesTheColourOrRangeError r g b
  have hcell (h : ¬ idxBad) : s.cell index = some index.toNat := State.cell_toNat h
  have hnoCell (h : idxBad) : s.cell index = none := State.cell_bad h
  have hcolor (h : ¬ rngBad) : pack r g b = some (BitVec.ofInt 24 (r * 65536 + g * 256 + b)) :=
    hpack (by simp only [rngBad] at h; omega)
  have hnoColor (h : rngBad) : pack r g b = none := hnone (by simp only [rngBad] at h; omega)
  refine ⟨fun hx hp => ?_, fun hx hp => ?_, fun hx hp => ?_, fun hx hp hprio => ?_, fun hx hp hprio => ?_⟩
  · exact exec_setPixelRgb_cell hr hi (hcell hx) (hcolor hp)
  · exact exec_setPixelRgb_error hr hi (.inl ⟨hnoCell hx, by rw [hcolor hp]; rfl, rfl⟩)
  · exact exec_setPixelRgb_error hr hi (.inr (.inl ⟨by rw [hcell hx]; rfl, hnoColor hp, rfl⟩))
  · exact exec_setPixelRgb_error hr hi (.inr (.inr ⟨hnoCell hx, hnoColor hp, by rw [State.bothErrors, hprio]⟩))
  · exact exec_setPixelRgb_error hr hi (.inr (.inr ⟨hnoCell hx, hnoColor hp, by rw [State.bothErrors, hprio]⟩))

/-- Settles O11: both reads answer the cell that the index names. -/
theorem getPixelReturnsTheStoredColour : Obligations.GetPixelReturnsTheStoredColour := by
  refine ⟨fun idx => ⟨decode_getPixel idx, decode_getPixelColor idx⟩, fun s hr hi => ⟨fun i c hc => ?_, fun _ hbad => ?_⟩⟩
  · exact exec_getPixel_cell hr hi hc
  · exact exec_getPixel_noCell hr hi (State.cell_bad hbad)

/-- Settles O12: the responses are sent in the order of the array; a core with one untaken is not ready. -/
theorem getPixelsReturnsTheWholeArray : Obligations.GetPixelsReturnsTheWholeArray := by
  refine ⟨rfl, fun s hr hi => ⟨?_, fun u hu => Bool.eq_false_iff.2 fun h => hu (State.ready_rsp h)⟩⟩
  have hword : responseWord .ok = fun c => c.setWidth 32 := funext responseWord_ok
  rw [exec_getPixels, State.accept_idle _ hr hi, State.respondAll, State.ready_rsp hr, List.nil_append, hword]

/-- Settles O13: N fits the 24 bits of the response's data. -/
theorem countReturnsThePixelCount : Obligations.CountReturnsThePixelCount := by
  refine ⟨rfl, fun s hr hi hN => ?_⟩
  have hword : responseWord .ok (BitVec.ofNat 24 s.count) = BitVec.ofNat 32 s.count := by
    have hcount : s.count ≤ 32767 := hN
    apply BitVec.eq_of_toNat_eq
    rw [responseWord_ok, BitVec.toNat_setWidth, BitVec.toNat_ofNat, BitVec.toNat_ofNat]
    omega
  rw [exec_count, State.accept_idle _ hr hi, State.respond_of_ready hr, hword]

/-- Settles O14: the operand denotes a value of BRT exactly where it lies in 0..256. -/
theorem setBrightnessWritesBrt : Obligations.SetBrightnessWritesBrt := by
  refine ⟨decode_setBrightness, fun s hr hi => ⟨fun n hn => ?_, fun brt hbad => ?_⟩⟩
  · rw [exec_setBrightness, State.accept_idle _ hr hi, brtOperand_ofNat hn]
    exact congrArg _ (State.respond_of_ready (s := s.writeBrt (BitVec.ofNat 9 n)) hr _ _)
  · rw [exec_setBrightness, State.accept_idle _ hr hi, brtOperand_bad hbad]
    exact congrArg _ (State.respond_of_ready hr _ _)

/-! What was set is what is read (R119). -/

/-- Once the answer to the write is taken, both reads of the cell answer the colour that was written. -/
theorem read_after_write {s t : State} {i : Nat} (hr : s.ready = true) (hi : s.fsm = .idle) (hlt : i < s.x.length)
    {color : Color} (ht : t = { s with x := s.x.set i color, rsp := [0x00000000#32] }) :
    ∃ u, exec (.getPixel i) t.takeResponse = .next u ∧ exec (.getPixelColor i) t.takeResponse = .next u ∧
      u.rsp = [color.setWidth 32] := by
  have hcell : (s.x.set i color)[i]? = some color := List.getElem?_set_self hlt
  have htake : t.takeResponse =
      { s with x := s.x.set i color, rsp := [], taken := s.taken ++ [0x00000000#32] } := by
    rw [ht, State.takeResponse_cons rfl]
  have hready : t.takeResponse.ready = true := by
    obtain ⟨hrst, hfsm, hp, -⟩ := s.ready_iff.1 hr
    rw [htake]
    exact (State.ready_iff _).2 ⟨hrst, hfsm, hp, rfl⟩
  obtain ⟨hget, hgetColor⟩ := exec_getPixel_cell hready (by rw [htake]; exact hi) (i := i) (c := color)
    (by rw [htake]; exact hcell)
  exact ⟨_, hget, hgetColor, rfl⟩

/-- Settles O20: each write puts its colour in the cell, and the reads of that cell answer it. -/
theorem readAfterWriteGivesTheColourSet : Obligations.ReadAfterWriteGivesTheColourSet := by
  intro s i hr hi hlt
  refine ⟨fun color => ?_, fun r g b => ?_⟩
  · obtain ⟨u, hget, -, hu⟩ := read_after_write hr hi hlt rfl
    exact ⟨_, u, exec_setPixel_cell hr hi (State.cell_ofNat hlt) color, hget, hu⟩
  · obtain ⟨u, -, hgetColor, hu⟩ := read_after_write hr hi hlt rfl
    exact ⟨_, u, exec_setPixelRgb_cell hr hi (State.cell_ofNat hlt) (pack_toNat r g b), hgetColor, hu⟩

end Machine
end Sys2Proof
end

section
/-! The controller, SHOW and CLOSE (spec/43_controller.md sections 3 and 4): what they leave unchanged whatever the environment
does (R119, R121, R112), and their runs where it lets time pass and answers each call (R104 to R112). -/

namespace Sys2Proof.Machine

theorem exec_idle_showFrame {s : State} (hr : s.ready = true) (hi : s.fsm = .idle) :
    exec .showFrame s = .next (State.runInputs s.inputs s.startShow) := by
  rw [exec_showFrame, State.accept_idle _ hr hi, State.complete, State.startShow_inputs]

theorem exec_idle_close {s : State} (hr : s.ready = true) (hi : s.fsm = .idle) :
    exec .close s = .next (State.runInputs s.inputs (s.request .closing .tClose)) := by
  rw [exec_close, State.accept_idle _ hr hi]
  rfl

/-! What SHOW and CLOSE leave unchanged (R119, R121, R112). -/

/-- `t` differs from `s` only where a SHOW or a CLOSE may, and the trace and the words offered have only grown. -/
def State.FramedBy (s t : State) : Prop :=
  t = { s with fsm := t.fsm, gapCnt := t.gapCnt, tx := t.tx, pending := t.pending, rsp := t.rsp, rst := t.rst,
               now := t.now, trace := t.trace, offered := t.offered, inputs := t.inputs } ∧
  s.trace <+: t.trace ∧ s.offered <+: t.offered

theorem State.FramedBy.of_rsp_only {s t : State} (h : t = { s with rsp := t.rsp }) : s.FramedBy t := by
  rw [h]
  exact ⟨rfl, ⟨[], List.append_nil _⟩, ⟨[], List.append_nil _⟩⟩

/-- A command that is not accepted in IDLE changes at most the response port. -/
theorem exec_rsp_only_or_idle {i : Instr} {s t : State} (h : exec i s = .next t) :
    t = { s with rsp := t.rsp } ∨ s.ready = true ∧ s.fsm = .idle := by
  obtain ⟨-, rfl⟩ | ⟨-, -, rfl⟩ | hidle := exec_cases h
  · exact .inl rfl
  · exact .inl rfl
  · exact .inr hidle

/-- `t` is a state of a command that was accepted in `s`; while it runs no response is sent and `rst` is not asserted. -/
structure State.Within (s t : State) : Prop where
  settings : t.settings = s.settings
  taken : t.taken = s.taken
  trace : s.trace <+: t.trace
  offered : s.offered <+: t.offered
  running : t.inCommand = true → t.rsp = [] ∧ t.rst = false

theorem State.Within.framedBy {s t : State} (h : s.Within t) : s.FramedBy t := by
  obtain ⟨hx, hbrt, horder, hfreq, hbuild⟩ := (State.settings_eq_iff t s).1 h.settings
  refine ⟨?_, h.trace, h.offered⟩
  rw [← hx, ← hbrt, ← horder, ← hfreq, ← hbuild, ← h.taken]

/-- Of the resets only the release writes the settings, and there is nothing to release while `rst` is not asserted. -/
theorem State.react_settings_of_rst {s : State} (hrst : s.rst = false) (e : Input) : (s.react e).settings = s.settings := by
  cases e with
  | rstAssert => rfl
  | rstRelease orderI freqI => exact congrArg State.settings (State.releaseReset_idle _ _ hrst)
  | _ => exact s.react_settings rfl

theorem State.Within.react {s t : State} (h : s.Within t) (hc : t.inCommand = true) (e : Input) (es : List Input) :
    s.Within ({ t with inputs := es }.react e) := by
  obtain ⟨hrsp, hrst⟩ := h.running hc
  have hext := State.react_extends { t with inputs := es } e
  obtain ⟨new, htrace, -⟩ := hext.trace
  exact
    { settings := (State.react_settings_of_rst (s := { t with inputs := es }) hrst e).trans h.settings
      taken := (hext.taken hrsp).trans h.taken
      trace := h.trace.trans ⟨new, htrace.symm⟩
      offered := h.offered.trans hext.offered
      running := fun hc' => ⟨hext.rsp hc' hrsp, (hext.rst (.inr ⟨hc', hrst⟩)).trans hrst⟩ }

theorem State.Within.runInputs {s t : State} (h : s.Within t) (es : List Input) : s.Within (State.runInputs es t) :=
  State.runInputs_keeps (P := s.Within) (fun _ e es h hc => h.react hc e es) es t h

theorem State.Within.startShow {s : State} (hr : s.ready = true) : s.Within s.startShow := by
  have hrun : s.rsp = [] ∧ s.rst = false := ⟨State.ready_rsp hr, State.ready_rst hr⟩
  unfold State.startShow
  split
  · exact ⟨rfl, rfl, ⟨_, rfl⟩, ⟨[], List.append_nil _⟩, fun _ => hrun⟩
  · exact ⟨rfl, rfl, ⟨[], List.append_nil _⟩, ⟨[], List.append_nil _⟩, fun _ => hrun⟩

theorem State.Within.closing {s : State} (hr : s.ready = true) : s.Within (s.request .closing .tClose) := by
  have hrun : s.rsp = [] ∧ s.rst = false := ⟨State.ready_rsp hr, State.ready_rst hr⟩
  exact ⟨rfl, rfl, ⟨_, rfl⟩, ⟨[], List.append_nil _⟩, fun _ => hrun⟩

/-- Where the inputs hold no reset, `rst` is not moved. -/
theorem State.runInputs_rst {t : State} {es : List Input} (hes : ∀ e ∈ es, e.noReset = true) :
    (State.runInputs es t).rst = t.rst :=
  State.runInputs_keeps_of_inputs (P := fun u => u.rst = t.rst) (ok := Input.noReset)
    (fun u e es hu he _ => ((State.react_extends { u with inputs := es } e).rst (.inl he)).trans hu) es t hes rfl

theorem State.startShow_rst (s : State) : s.startShow.rst = s.rst := by
  unfold State.startShow
  split <;> rfl

/-- Settles O25: a SHOW that waits or is turned away changes at most the response port; one that runs stays within its frame
input by input. -/
theorem showLeavesPixelsAndConfigurationAlone : Obligations.ShowLeavesPixelsAndConfigurationAlone := by
  intro s t h
  obtain ht | ⟨hr, hi⟩ := exec_rsp_only_or_idle h
  · obtain ⟨hframe, htrace, hoff⟩ := State.FramedBy.of_rsp_only ht
    exact ⟨hframe, htrace, hoff, fun _ => by rw [ht]⟩
  · cases Host.Outcome.next.inj ((exec_idle_showFrame hr hi).symm.trans h)
    obtain ⟨hframe, htrace, hoff⟩ := ((State.Within.startShow hr).runInputs s.inputs).framedBy
    exact ⟨hframe, htrace, hoff, fun hes => (State.runInputs_rst hes).trans s.startShow_rst⟩

/-- A CLOSE whose T_CLOSE is unanswered in IDLE, or that is complete; `tx` is what SEQ and the TransmitBuffer were before. -/
def State.ClosingWith (tx : Option Transmit) (t : State) : Prop :=
  t.tx = tx ∧ (t.inCommand = true → t.fsm = .idle ∧ t.pending = some .closing)

theorem State.ClosingWith.react {tx : Option Transmit} {t : State} (h : t.ClosingWith tx) (hc : t.inCommand = true)
    {e : Input} (he : e.noReset = true) : (t.react e).ClosingWith tx := by
  obtain ⟨htx, hrun⟩ := h
  obtain ⟨hf, hp⟩ := hrun hc
  cases e with
  | tick =>
    have ht : t.tick = t.countDown := State.tick_plain fun hwait => nomatch hf.symm.trans hwait.1
    change t.tick.ClosingWith tx
    rw [ht]
    exact ⟨htx, fun _ => ⟨hf, hp⟩⟩
  | answer ok =>
    change (t.answer ok).ClosingWith tx
    rw [State.answer_closing ok hp]
    exact ⟨htx, nofun⟩
  | takeByte =>
    have ht : t.takeByte = t := State.takeByte_idle (by rw [hp]; decide)
    change t.takeByte.ClosingWith tx
    rw [ht]
    exact ⟨htx, fun _ => ⟨hf, hp⟩⟩
  | word w => exact ⟨htx, fun _ => ⟨hf, hp⟩⟩
  | takeResponse =>
    change t.takeResponse.ClosingWith tx
    cases hrsp : t.rsp with
    | nil => rw [State.takeResponse_nil hrsp]; exact ⟨htx, fun _ => ⟨hf, hp⟩⟩
    | cons r rs => rw [State.takeResponse_cons hrsp]; exact ⟨htx, fun _ => ⟨hf, hp⟩⟩
  | rstAssert => cases he
  | rstRelease orderI freqI => cases he

theorem State.ClosingWith.runInputs {tx : Option Transmit} {t : State} (h : t.ClosingWith tx) {es : List Input}
    (hes : ∀ e ∈ es, e.noReset = true) : (State.runInputs es t).ClosingWith tx :=
  State.runInputs_keeps_of_inputs (P := State.ClosingWith tx) (ok := Input.noReset)
    (fun u _ es hu he hc => State.ClosingWith.react (t := { u with inputs := es }) hu hc he) es t hes h

/-- Settles O27: as for SHOW; in between T_CLOSE and its answer nothing writes the TransmitBuffer. -/
theorem closeLeavesPixelsAndConfigurationAlone : Obligations.CloseLeavesPixelsAndConfigurationAlone := by
  intro s t h
  obtain ht | ⟨hr, hi⟩ := exec_rsp_only_or_idle h
  · obtain ⟨hframe, htrace, hoff⟩ := State.FramedBy.of_rsp_only ht
    exact ⟨hframe, htrace, hoff, fun _ => ⟨by rw [ht], by rw [ht]⟩⟩
  · cases Host.Outcome.next.inj ((exec_idle_close hr hi).symm.trans h)
    obtain ⟨hframe, htrace, hoff⟩ := ((State.Within.closing hr).runInputs s.inputs).framedBy
    have hstart : (s.request .closing .tClose).ClosingWith s.tx := ⟨rfl, fun _ => ⟨hi, rfl⟩⟩
    exact ⟨hframe, htrace, hoff, fun hes => ⟨State.runInputs_rst hes, (hstart.runInputs hes).1⟩⟩

/-! A SHOW in GAPWAIT and in TRANSMIT (R105 to R109). -/

/-- A SHOW accepted in `s` is in GAPWAIT: the environment did `q`, and `es` is still to come. -/
def State.waiting (s : State) (q es : List Input) : State :=
  { s with
    fsm := .gapwait, gapCnt := s.gapCnt - ticksOf q, inputs := es, offered := s.offered ++ wordsOf q,
    now := s.now + ticksOf q }

/-- The SHOW is in TRANSMIT with the call `p` unanswered, and has added `log` to the trace. -/
def State.transmitting (s : State) (q es : List Input) (p : Pending) (tx : Option Transmit) (log : List TraceEntry) : State :=
  { s with
    fsm := .transmit, gapCnt := 0, tx := tx, pending := some p, inputs := es, offered := s.offered ++ wordsOf q,
    now := s.now + ticksOf q, trace := s.trace ++ log }

/-- The SHOW is complete with the status `st`. -/
def State.shown (s : State) (q es : List Input) (st : Status) (log : List TraceEntry) : State :=
  { s with
    gapCnt := s.build.gapTicks, fsm := .idle, tx := none, pending := none, rsp := [responseWord st 0], inputs := es,
    offered := s.offered ++ wordsOf q, now := s.now + ticksOf q, trace := s.trace ++ log }

/-- R106: the tick that brings GAP_CNT to 0 begins the transaction. -/
theorem State.waiting_tick {s : State} {q es : List Input} (hlast : ticksOf q + 1 = s.gapCnt) :
    (s.waiting q es).tick =
      s.transmitting (q ++ [.tick]) es .beginning (some ⟨[], 0⟩) [⟨s.now + s.gapCnt, .call .tBegin⟩] := by
  have hone : s.gapCnt - ticksOf q = 1 := by omega
  obtain ⟨-, -, h⟩ | ⟨hno, -⟩ := (s.waiting q es).tick_cases
  · rw [h, State.transmitting, ← hlast]
    simp [State.waiting, hone, State.beginTransaction, State.request, State.log, ticksOf_append, wordsOf_append,
      ticksOf, wordsOf, Nat.add_assoc]
  · exact absurd ⟨rfl, hone.le⟩ hno

section Show
variable {s : State} (hr : s.ready = true)
include hr

/-- R105: fewer ticks than GAP_CNT leave the SHOW in GAPWAIT. -/
theorem State.runInputs_waiting {q es : List Input} (hin : s.inputs = q ++ es) (hq : ∀ e ∈ q, e.quiet = true)
    (hlt : ticksOf q < s.gapCnt) : State.runInputs (q ++ es) s.startShow = State.runInputs es (s.waiting q es) := by
  have hstart : s.startShow = { s with fsm := .gapwait } := by rw [State.startShow, if_neg (Nat.ne_zero_of_lt hlt)]
  rw [hstart]
  have hrsp := State.ready_rsp hr
  obtain ⟨tx, htx, -, hrun⟩ := State.runInputs_quiet q { s with fsm := .gapwait } es hq hin rfl hrsp (fun _ => hlt)
  have hp : s.pending ≠ some .writing := by rw [State.ready_pending hr]; decide
  rw [hrun, htx hp]
  rfl

/-- While the environment is quiet a SHOW in TRANSMIT stays there; only T_WRITE lets it take bytes. -/
theorem State.runInputs_transmitting {q q' es : List Input} {p : Pending} {tx : Option Transmit} {log : List TraceEntry}
    (hq : ∀ e ∈ q', e.quiet = true) :
    ∃ tx', (p ≠ .writing → tx' = tx) ∧
      State.runInputs (q' ++ es) (s.transmitting q (q' ++ es) p tx log) =
        State.runInputs es (s.transmitting (q ++ q') es p tx' log) := by
  have hrsp := State.ready_rsp hr
  obtain ⟨tx', htx, -, hrun⟩ := State.runInputs_quiet q' (s.transmitting q (q' ++ es) p tx log) es hq rfl rfl hrsp nofun
  refine ⟨tx', fun hp => htx fun h => hp (Option.some.inj h), hrun.trans (congrArg _ ?_)⟩
  simp [State.pass, State.transmitting, ticksOf_append, wordsOf_append, Nat.add_assoc]

/-- R105, R106: T_BEGIN is called after GAP_CNT ticks, at once where GAP_CNT is 0. -/
theorem State.runInputs_beginning {q es : List Input} (hin : s.inputs = q ++ es) (hq : ∀ e ∈ q, e.quiet = true)
    (hgap : s.gapCnt ≤ ticksOf q) :
    State.runInputs (q ++ es) s.startShow =
      State.runInputs es (s.transmitting q es .beginning (some ⟨[], 0⟩) [⟨s.now + s.gapCnt, .call .tBegin⟩]) := by
  obtain hz | hpos := Nat.eq_zero_or_pos s.gapCnt
  · have hstart : s.startShow =
        s.transmitting [] (q ++ es) .beginning (some ⟨[], 0⟩) [⟨s.now + s.gapCnt, .call .tBegin⟩] := by
      rw [State.startShow, if_pos hz]
      simp [State.beginTransaction, State.request, State.log, State.transmitting, ticksOf, wordsOf, hz, hin]
    obtain ⟨tx, htx, hrun⟩ := State.runInputs_transmitting hr hq
    rw [hstart, hrun, htx nofun, List.nil_append]
  · obtain ⟨qa, qb, rfl, hlast⟩ := split_at_tick hpos hgap
    rw [List.forall_mem_append, List.forall_mem_cons] at hq
    obtain ⟨hqa, -, hqb⟩ := hq
    obtain ⟨tx, htx, hrun⟩ := State.runInputs_transmitting hr (q := qa ++ [.tick]) (es := es) (p := .beginning)
      (tx := some ⟨[], 0⟩) (log := [⟨s.now + s.gapCnt, .call .tBegin⟩]) hqb
    rw [List.append_assoc, List.cons_append] at hin ⊢
    calc State.runInputs (qa ++ .tick :: (qb ++ es)) s.startShow
        = State.runInputs (.tick :: (qb ++ es)) (s.waiting qa (.tick :: (qb ++ es))) :=
          State.runInputs_waiting hr hin hqa (by omega)
      _ = State.runInputs (qb ++ es) (s.waiting qa (qb ++ es)).tick := State.runInputs_cons _ _ rfl
      _ = _ := by rw [State.waiting_tick hlast, hrun, htx nofun, List.append_assoc, List.singleton_append]

end Show

/-- Settles O24: with too few ticks the SHOW ends in GAPWAIT, with enough in TRANSMIT; no input is left. -/
theorem showWaitsOutTheGap : Obligations.ShowWaitsOutTheGap := by
  intro s hr hi hq
  have hin := (List.append_nil s.inputs).symm
  refine ⟨fun hlt => (exec_idle_showFrame hr hi).trans ?_, fun hle => (exec_idle_showFrame hr hi).trans ?_⟩
  · have hrun := State.runInputs_waiting hr hin hq hlt
    rw [List.append_nil] at hrun
    exact congrArg _ hrun
  · have hrun := State.runInputs_beginning hr hin hq hle
    rw [List.append_nil] at hrun
    exact congrArg _ hrun

/-! The answers to the calls of a SHOW (R106 to R111). -/

section Answers
variable {s : State} {q es : List Input} {tx : Option Transmit} {log : List TraceEntry}

theorem State.runInputs_transmitting_answer (p : Pending) (ok : Bool) :
    State.runInputs (.answer ok :: es) (s.transmitting q (.answer ok :: es) p tx log) =
      State.runInputs es ((s.transmitting q es p tx log).answer ok) :=
  State.runInputs_cons _ _ rfl

/-- R107, R108: T_BEGIN answered ok: T_WRITE is called with the frame of the values at acceptance. -/
theorem State.runInputs_begin_ok :
    State.runInputs (.answer true :: es) (s.transmitting q (.answer true :: es) .beginning tx log) =
      State.runInputs es (s.transmitting q es .writing (some ⟨s.frame, 0⟩)
        (log ++ [⟨s.now + ticksOf q, .answer .beginning true⟩, ⟨s.now + ticksOf q, .call (.tWrite s.frame)⟩])) := by
  rw [State.runInputs_transmitting_answer, State.answer_beginning true rfl]
  simp [State.transmitting, State.writeFrame, State.request, State.log, State.frame]

/-- R109, R111 (ii): T_END is called whatever is answered to T_WRITE. -/
theorem State.runInputs_write (good : Bool) :
    ∃ tx', State.runInputs (.answer good :: es) (s.transmitting q (.answer good :: es) .writing tx log) =
      State.runInputs es (s.transmitting q es (.ending good) tx'
        (log ++ [⟨s.now + ticksOf q, .answer .writing good⟩, ⟨s.now + ticksOf q, .call .tEnd⟩])) := by
  rw [State.runInputs_transmitting_answer, State.answer_writing good rfl]
  exact ⟨if good then tx.map fun t => { t with seq := t.buf.length } else tx,
    by simp [State.transmitting, State.endTransaction, State.request, State.log]⟩

/-- R110, R111: the SHOW is complete, and takes no further input. -/
theorem State.runInputs_finishShow (hr : s.ready = true) (p : Pending) (ok : Bool) (st : Status) :
    State.runInputs es (((s.transmitting q es p tx log).log (.answer p ok)).finishShow st) =
      s.shown q es st (log ++ [⟨s.now + ticksOf q, .answer p ok⟩]) := by
  rw [State.runInputs_done es rfl]
  simp [State.transmitting, State.shown, State.finishShow, State.log, State.respond, State.ready_rsp hr]

theorem State.runInputs_begin_fail (hr : s.ready = true) :
    State.runInputs (.answer false :: es) (s.transmitting q (.answer false :: es) .beginning tx log) =
      s.shown q es .transportUnavailable (log ++ [⟨s.now + ticksOf q, .answer .beginning false⟩]) :=
  (State.runInputs_transmitting_answer ..).trans (State.runInputs_finishShow hr .beginning false _)

theorem State.runInputs_end (hr : s.ready = true) (good ok : Bool) :
    State.runInputs (.answer ok :: es) (s.transmitting q (.answer ok :: es) (.ending good) tx log) =
      s.shown q es (if ok && good then .ok else .transportUnavailable)
        (log ++ [⟨s.now + ticksOf q, .answer (.ending good) ok⟩]) :=
  (State.runInputs_transmitting_answer ..).trans (State.runInputs_finishShow hr (.ending good) ok _)

end Answers

/-! A whole SHOW (R104 to R111). -/

section Run
variable {s : State} {q1 q2 q3 rest : List Input} (hr : s.ready = true) (hi : s.fsm = .idle)
  (hq1 : ∀ e ∈ q1, e.quiet = true) (hgap : s.gapCnt ≤ ticksOf q1)
include hr hi hq1 hgap

/-- R111 (i): T_BEGIN is answered fail: T_WRITE and T_END are not called. -/
theorem exec_showFrame_begin_fail (hin : s.inputs = q1 ++ .answer false :: rest) :
    exec .showFrame s = .next (s.shown q1 rest .transportUnavailable
      [⟨s.now + s.gapCnt, .call .tBegin⟩, ⟨s.now + ticksOf q1, .answer .beginning false⟩]) := by
  rw [exec_idle_showFrame hr hi, hin, State.runInputs_beginning hr hin hq1 hgap, State.runInputs_begin_fail hr]
  rfl

/-- R107 to R111: T_BEGIN is answered ok: T_WRITE and T_END are called once each, whatever is answered to T_WRITE, and the
status is OK where both are answered ok. -/
theorem exec_showFrame_begin_ok (hq2 : ∀ e ∈ q2, e.quiet = true) (hq3 : ∀ e ∈ q3, e.quiet = true) {good ok : Bool}
    (hin : s.inputs = q1 ++ .answer true :: (q2 ++ .answer good :: (q3 ++ .answer ok :: rest))) :
    exec .showFrame s = .next (s.shown (q1 ++ q2 ++ q3) rest (if ok && good then .ok else .transportUnavailable)
      [⟨s.now + s.gapCnt, .call .tBegin⟩,
       ⟨s.now + ticksOf q1, .answer .beginning true⟩,
       ⟨s.now + ticksOf q1, .call (.tWrite s.frame)⟩,
       ⟨s.now + ticksOf (q1 ++ q2), .answer .writing good⟩,
       ⟨s.now + ticksOf (q1 ++ q2), .call .tEnd⟩,
       ⟨s.now + ticksOf (q1 ++ q2 ++ q3), .answer (.ending good) ok⟩]) := by
  rw [exec_idle_showFrame hr hi, hin, State.runInputs_beginning hr hin hq1 hgap, State.runInputs_begin_ok]
  obtain ⟨txWrite, -, hwrite⟩ := State.runInputs_transmitting hr (q := q1) hq2
  rw [hwrite]
  obtain ⟨txEnd, hend⟩ := State.runInputs_write good
  rw [hend]
  obtain ⟨txLast, -, hlast⟩ := State.runInputs_transmitting hr (q := q1 ++ q2) hq3
  rw [hlast, State.runInputs_end hr]
  rfl

end Run

/-- Settles O22: T_WRITE and T_END are both answered ok. -/
theorem showTransmitsTheFrame : Obligations.ShowTransmitsTheFrame := by
  intro s q1 q2 q3 rest hr hi hin hq hgap
  rw [List.forall_mem_append, List.forall_mem_append] at hq
  obtain ⟨⟨hq1, hq2⟩, hq3⟩ := hq
  exact exec_showFrame_begin_ok hr hi hq1 hgap hq2 hq3 hin

/-- Settles O23: (i) T_BEGIN is answered fail, (ii) T_WRITE is, (iii) T_END is. -/
theorem showFailureEndsTheTransaction : Obligations.ShowFailureEndsTheTransaction := by
  intro s q1 q2 q3 rest b hr hi hq hgap
  rw [List.forall_mem_append, List.forall_mem_append] at hq
  obtain ⟨⟨hq1, hq2⟩, hq3⟩ := hq
  refine ⟨fun hin => exec_showFrame_begin_fail hr hi hq1 hgap hin, fun hin => ?_, fun hin => ?_⟩
  · have hrun := exec_showFrame_begin_ok hr hi hq1 hgap hq2 hq3 hin
    rwa [Bool.and_false] at hrun
  · exact exec_showFrame_begin_ok hr hi hq1 hgap hq2 hq3 hin

/-! CLOSE (R112). -/

theorem State.closing_inCommand (s : State) (q es : List Input) :
    ((s.request .closing .tClose).pass q es s.tx).inCommand = true := by
  simp [State.inCommand, State.pass]

/-- Until T_CLOSE is answered time passes and words are offered. -/
theorem State.runInputs_closing {s : State} {q es : List Input} (hr : s.ready = true) (hi : s.fsm = .idle)
    (hin : s.inputs = q ++ es) (hq : ∀ e ∈ q, e.quiet = true) :
    State.runInputs (q ++ es) (s.request .closing .tClose) =
      State.runInputs es ((s.request .closing .tClose).pass q es s.tx) := by
  have hrsp := State.ready_rsp hr
  obtain ⟨tx, htx, -, hrun⟩ := State.runInputs_quiet q (s.request .closing .tClose) es hq hin
    (by simp [State.inCommand]) hrsp fun hwait => nomatch hi.symm.trans hwait
  rw [hrun, htx (by simp), State.request_tx]

/-- Settles O26: the answer to T_CLOSE, whatever it is, closes the core and completes the command. -/
theorem closeClosesTheCore : Obligations.CloseClosesTheCore := by
  refine ⟨rfl, fun s q rest b hr hi hin hq => ?_⟩
  have hanswer : State.runInputs (.answer b :: rest) ((s.request .closing .tClose).pass q (.answer b :: rest) s.tx) =
      State.runInputs rest (((s.request .closing .tClose).pass q rest s.tx).answer b) :=
    State.runInputs_cons _ _ (s.closing_inCommand q _)
  have hword : responseWord .ok 0#24 = 0x00000000#32 := rfl
  rw [exec_idle_close hr hi, hin, State.runInputs_closing hr hi hin hq, hanswer, State.answer_closing b rfl,
    State.runInputs_done rest rfl]
  simp [State.pass, State.log, State.respond, State.ready_rsp hr, hword]

end Sys2Proof.Machine
end

section
/-! Exceptions (spec/60_exceptions.md): the inter-frame gap (section 6), that every step, hence every run from reset, keeps the
gap (R137, R139), the count of GAP_CNT (R136, R138), and that a command answered RangeError or IndexError changes nothing
(section 1, R122, R128). -/

namespace Sys2Proof.Machine

/-! What keeps the gap (R137, R139). -/

/-- The part of `State.GapSafe` that speaks of the past alone: the trace keeps the gap, and no entry is ahead of the clock. -/
structure State.GapKept (s : State) : Prop where
  spaced : GapRespected s.build.gapTicks s.trace
  past : ∀ e ∈ s.trace, e.tick ≤ s.now

namespace State.GapKept
variable {s t : State} (h : s.GapKept)
include h

/-- An event may be recorded at the current tick; T_BEGIN only where every earlier point is GAP_TICKS ago. -/
theorem record {ev : TransportEvent} (htrace : t.trace = s.trace ++ [⟨s.now, ev⟩]) (hnow : t.now = s.now)
    (hbuild : t.build = s.build)
    (hbegin : ev = .call .tBegin → ∀ e ∈ s.trace, e.isGapPoint = true → e.tick + s.build.gapTicks ≤ s.now) :
    t.GapKept where
  spaced := by
    rw [htrace, hbuild, GapRespected, List.pairwise_append]
    refine ⟨h.spaced, List.pairwise_singleton _ _, fun e he l hl hpoint hl' => ?_⟩
    cases List.mem_singleton.1 hl
    exact hbegin (eq_of_beq hl') e he hpoint
  past := by
    rw [htrace, hnow, List.forall_mem_append, List.forall_mem_singleton]
    exact ⟨h.past, le_rfl⟩

theorem of_transmit (hf : s.fsm = .transmit) : s.GapSafe := ⟨h.spaced, h.past, fun hne => absurd hf hne⟩

theorem of_inReset (hrst : s.rst = true) : s.GapSafe := ⟨h.spaced, h.past, fun _ hr => nomatch hrst.symm.trans hr⟩

/-- R110, R111, R96: a GAP_CNT just loaded with GAP_TICKS covers every point that is past. -/
theorem of_reloaded (hgap : s.gapCnt = s.build.gapTicks) : s.GapSafe :=
  ⟨h.spaced, h.past, fun _ _ e he _ => by rw [hgap]; exact Nat.add_le_add_right (h.past e he) _⟩

/-- R111: the SHOW ends with an answer that is recorded, and GAP_CNT is reloaded. -/
theorem finishShow (p : Pending) (ok : Bool) (st : Status) : ((s.log (.answer p ok)).finishShow st).GapSafe :=
  of_reloaded (h.record rfl rfl rfl nofun) rfl

theorem releaseReset (hrst : s.rst = true) (order : Order) (freq : FreqClass) : (s.releaseReset order freq).GapSafe := by
  rw [State.releaseReset_of order freq hrst]
  exact of_reloaded (h.record rfl rfl rfl nofun) rfl

end State.GapKept

/-- What `State.GapSafe` looks at. -/
def State.gapView (s : State) : Build × List TraceEntry × Nat × Nat × Fsm × Bool :=
  (s.build, s.trace, s.now, s.gapCnt, s.fsm, s.rst)

namespace State.GapSafe
variable {s : State} (h : s.GapSafe)
include h

theorem of_gapView_eq {t : State} (hview : t.gapView = s.gapView) : t.GapSafe := by
  simp only [State.gapView, Prod.mk.injEq] at hview
  obtain ⟨hbuild, htrace, hnow, hgap, hfsm, hrst⟩ := hview
  constructor
  · rw [hbuild, htrace]; exact h.spaced
  · rw [htrace, hnow]; exact h.past
  · rw [hbuild, htrace, hnow, hgap, hfsm, hrst]; exact h.due

theorem kept : s.GapKept := ⟨h.spaced, h.past⟩

/-- R138: GAP_CNT loses at most the one tick that passes. -/
theorem countDown : s.countDown.GapSafe where
  spaced := h.spaced
  past := fun e he => (h.past e he).trans (Nat.le_succ _)
  due := fun hf hrst e he hpoint => by
    have hdue := h.due hf hrst e he hpoint
    rw [State.countDown_build, State.countDown_now, State.countDown_gapCnt]
    omega

/-- R106: where GAP_CNT is 0 nothing is owed any more, and T_BEGIN may be called. -/
theorem beginTransaction (hf : s.fsm ≠ .transmit) (hrst : s.rst = false) (hgap : s.gapCnt = 0) :
    s.beginTransaction.GapSafe :=
  State.GapKept.of_transmit
    (h.kept.record rfl rfl rfl fun _ e he hpoint => by simpa [hgap] using h.due hf hrst e he hpoint) rfl

/-- Nothing is owed for a call or an answer that is no point of a SHOW or a reset; FSM may leave one state outside TRANSMIT
for another. -/
theorem record_other {t : State} {ev : TransportEvent} (hf : s.fsm ≠ .transmit) (hrst : s.rst = false)
    (hpoint : (⟨s.now, ev⟩ : TraceEntry).isGapPoint = false) (htrace : t.trace = s.trace ++ [⟨s.now, ev⟩])
    (hnow : t.now = s.now) (hbuild : t.build = s.build) (hgap : t.gapCnt = s.gapCnt) : t.GapSafe := by
  have hkept : t.GapKept := h.kept.record htrace hnow hbuild (by rintro rfl; cases hpoint)
  refine ⟨hkept.spaced, hkept.past, fun _ _ e he he' => ?_⟩
  rw [htrace, List.mem_append, List.mem_singleton] at he
  obtain he | rfl := he
  · rw [hbuild, hnow, hgap]
    exact h.due hf hrst e he he'
  · exact nomatch hpoint.symm.trans he'

theorem tick (hinv : s.Inv) : s.tick.GapSafe := by
  obtain ⟨hf, hgap, ht⟩ | ⟨-, ht⟩ := s.tick_cases
  · obtain ⟨-, hrst, -⟩ := (State.phaseOk_gapwait hf).1 hinv.phase
    rw [ht]
    exact h.countDown.beginTransaction (by simp [hf]) hrst (Nat.sub_eq_zero_of_le hgap)
  · rw [ht]
    exact h.countDown

theorem answer (hinv : s.Inv) (ok : Bool) : (s.answer ok).GapSafe := by
  cases hp : s.pending with
  | none => rwa [State.answer_none ok hp]
  | some p =>
    obtain ⟨hrst, -, ⟨hf, -, rfl⟩ | ⟨hf, -, rfl⟩ | ⟨hf, -, u, -, hfits⟩⟩ := hinv.pending_cases hp
    · rw [State.answer_opening ok hp]
      exact h.record_other (by simp [hf]) hrst rfl rfl rfl rfl rfl
    · rw [State.answer_closing ok hp]
      exact h.record_other (by simp [hf]) hrst rfl rfl rfl rfl rfl
    · have hans (p : Pending) : (s.log (.answer p ok)).GapKept := h.kept.record rfl rfl rfl nofun
      cases p with
      | opening => exact hfits.elim
      | closing => exact hfits.elim
      | beginning =>
        rw [State.answer_beginning ok hp]
        cases ok with
        | true => exact State.GapKept.of_transmit ((hans _).record rfl rfl rfl nofun) hf
        | false => exact h.kept.finishShow ..
      | writing =>
        rw [State.answer_writing ok hp]
        exact State.GapKept.of_transmit ((hans _).record rfl rfl rfl nofun) hf
      | ending good =>
        rw [State.answer_ending ok hp]
        exact h.kept.finishShow ..

theorem takeByte : s.takeByte.GapSafe := by
  obtain ⟨u, -, -, hb⟩ | hb := s.takeByte_cases
  · rw [hb]; exact h.of_gapView_eq rfl
  · rwa [hb]

theorem takeResponse : s.takeResponse.GapSafe := by
  cases hrsp : s.rsp with
  | nil => rwa [State.takeResponse_nil hrsp]
  | cons r rs => rw [State.takeResponse_cons hrsp]; exact h.of_gapView_eq rfl

theorem releaseReset (order : Order) (freq : FreqClass) : (s.releaseReset order freq).GapSafe := by
  cases hr : s.rst with
  | false => rwa [State.releaseReset_idle order freq hr]
  | true => exact h.kept.releaseReset hr order freq

theorem react (hinv : s.Inv) (e : Input) : (s.react e).GapSafe := by
  cases e with
  | tick => exact h.tick hinv
  | answer ok => exact h.answer hinv ok
  | takeByte => exact h.takeByte
  | word w => exact h.of_gapView_eq rfl
  | takeResponse => exact h.takeResponse
  | rstAssert => exact State.GapKept.of_inReset ⟨h.spaced, h.past⟩ rfl
  | rstRelease orderI freqI => exact h.releaseReset _ _

theorem startShow (hr : s.ready = true) (hf : s.fsm = .idle) : s.startShow.GapSafe := by
  have hrst := State.ready_rst hr
  have hwait : ({ s with fsm := .gapwait } : State).GapSafe :=
    ⟨h.spaced, h.past, fun _ _ => h.due (by simp [hf]) hrst⟩
  unfold State.startShow
  split
  · next hgap => exact hwait.beginTransaction nofun hrst hgap
  · exact hwait

theorem closing (hr : s.ready = true) (hf : s.fsm = .idle) : (s.request .closing .tClose).GapSafe :=
  h.record_other (by simp [hf]) (State.ready_rst hr) rfl rfl rfl rfl rfl

end State.GapSafe

/-- The invariant says which call an answer ends and that a SHOW waits out of reset, so the two are kept together. -/
structure State.InvGapSafe (s : State) : Prop where
  inv : s.Inv
  gapSafe : s.GapSafe

theorem invGapSafe_kept : Kept State.InvGapSafe where
  inputs s es h := ⟨inv_kept.inputs s es h.inv, h.gapSafe.of_gapView_eq rfl⟩
  offered s ws h := ⟨inv_kept.offered s ws h.inv, h.gapSafe.of_gapView_eq rfl⟩
  react _ e h := ⟨h.inv.react e, h.gapSafe.react h.inv e⟩
  raise s e h hr he := ⟨inv_kept.raise s e h.inv hr he, h.gapSafe.of_gapView_eq rfl⟩
  respond s d h hr hf := ⟨inv_kept.respond s d h.inv hr hf, h.gapSafe.of_gapView_eq rfl⟩
  respondAll s vs h hr hf := ⟨inv_kept.respondAll s vs h.inv hr hf, h.gapSafe.of_gapView_eq rfl⟩
  writePixel s i v h hr hf hi := ⟨inv_kept.writePixel s i v h.inv hr hf hi, h.gapSafe.of_gapView_eq rfl⟩
  writeBrt s v h hr hf hv := ⟨inv_kept.writeBrt s v h.inv hr hf hv, h.gapSafe.of_gapView_eq rfl⟩
  startShow _ h hr hf := ⟨h.inv.startShow hr hf, h.gapSafe.startShow hr hf⟩
  closing _ h hr hf := ⟨h.inv.closing hr hf, h.gapSafe.closing hr hf⟩

/-- Settles O46: every operation keeps the invariant and the gap together, hence every step does. -/
theorem stepKeepsTheGap : Obligations.StepKeepsTheGap :=
  fun _ _ hinv hgap hst => (invGapSafe_kept.step ⟨hinv, hgap⟩ hst).gapSafe

/-! Runs from reset (R139). -/

section Construct
variable {b : Build} {n : Nat} (order : Order) (freq : FreqClass)

theorem State.construct_inv (hb : b.wf = true) (hpos : 1 ≤ n) (hmax : n ≤ 32767) :
    (State.construct b n order freq).Inv where
  pixels := by
    have hcount : (State.construct b n order freq).count = n := List.length_replicate
    rw [hcount]
    exact ⟨hpos, hmax⟩
  build := hb
  brt := le_rfl
  gap := le_rfl
  inReset := nofun
  phase := Iff.mpr (State.phaseOk_idle rfl) ⟨rfl, rfl, .inl rfl⟩

/-- R143: reset loads GAP_CNT with GAP_TICKS, so that the T_OPEN of reset is a point the first SHOW waits for. -/
theorem State.construct_gapSafe : (State.construct b n order freq).GapSafe :=
  State.GapKept.of_reloaded ⟨List.pairwise_pair.2 nofun, by simp [State.construct, State.powerUp]⟩ rfl

end Construct

/-- Settles O47: the core after reset keeps the gap, and every run from it does; no run changes the build. -/
theorem runsFromResetKeepTheGap : Obligations.RunsFromResetKeepTheGap := by
  intro b n order freq es ws k t hb hpos hmax hrun
  have hstart : State.InvGapSafe { State.construct b n order freq with inputs := es, offered := ws } :=
    invGapSafe_kept.offered _ ws (invGapSafe_kept.inputs _ es
      ⟨State.construct_inv order freq hb hpos hmax, State.construct_gapSafe order freq⟩)
  have hgap := (run_keeps (fun _ _ => invGapSafe_kept.step) k hstart hrun).gapSafe.spaced
  obtain ⟨-, hbuild⟩ : t.MadeWith n b :=
    run_keeps (fun _ _ => (madeWith_kept n b).step) k ⟨List.length_replicate, rfl⟩ hrun
  obtain ⟨-, hlong, -⟩ := gapTicksIsTheCeilingOfFiftyMicroseconds b hb
  exact ⟨hbuild ▸ hgap, hlong⟩

/-! The count of GAP_CNT (R136, R138). -/

@[simp] theorem State.tick_gapCnt (s : State) : s.tick.gapCnt = s.gapCnt - 1 := by
  obtain ⟨-, -, h⟩ | ⟨-, h⟩ := s.tick_cases <;> simp [h]

@[simp] theorem State.tick_now (s : State) : s.tick.now = s.now + 1 := by
  obtain ⟨-, -, h⟩ | ⟨-, h⟩ := s.tick_cases <;> simp [h]

@[simp] theorem State.tick_offered (s : State) : s.tick.offered = s.offered := by
  obtain ⟨-, -, h⟩ | ⟨-, h⟩ := s.tick_cases <;> simp [h]

@[simp] theorem State.tick_rsp (s : State) : s.tick.rsp = s.rsp := by
  obtain ⟨-, -, h⟩ | ⟨-, h⟩ := s.tick_cases <;> simp [h]

@[simp] theorem State.tick_inputs (s : State) : s.tick.inputs = s.inputs := s.react_inputs_eq .tick

/-- Settles O43: a tick counts down, and only where it ends a gap wait does the transaction begin as well. -/
theorem tickCountsTheGapDown : Obligations.TickCountsTheGapDown := by
  intro s
  refine ⟨?count, ?frame, fun h => State.tick_plain fun ⟨hf, hle⟩ => h.elim (absurd hf) (not_lt.2 hle)⟩
  case count =>
    rw [State.tick_gapCnt]
    split <;> omega
  case frame =>
    obtain ⟨-, -, h⟩ | ⟨-, h⟩ := s.tick_cases
    · rw [h]; rfl
    · rw [h]

/-- With nothing offered no word is fetched, so the step is the next input, here a tick. -/
theorem step_tick {s : State} {es : List Input} (ho : s.offered = []) (hin : s.inputs = .tick :: es) :
    ∃ u, step s = .next u ∧ u.offered = [] ∧ u.inputs = es ∧ u.gapCnt = s.gapCnt - 1 ∧ u.now = s.now + 1 := by
  have hstep : step s = .next ({ s with inputs := es } : State).tick := by
    rw [step_of_fetch_none (State.fetch_none_of (.inr ho)), State.environment_cons hin]
    rfl
  exact ⟨_, hstep, (State.tick_offered _).trans ho, State.tick_inputs _, State.tick_gapCnt _, State.tick_now _⟩

/-- Settles O44, by induction on the number of ticks: each step is one of them. -/
theorem gapCounterClosedForm : Obligations.GapCounterClosedForm := by
  intro s n
  induction n generalizing s with
  | zero => exact fun _ _ => ⟨s, rfl, rfl, rfl⟩
  | succ n ih =>
    intro ho hin
    obtain ⟨u, hstep, hou, hinu, hgapu, hnowu⟩ := step_tick ho hin
    obtain ⟨t, hrun, hgap, hnow⟩ := ih u hou hinu
    exact ⟨t, (run_succ hstep n).trans hrun, by omega, by omega⟩

/-! Rejected commands (R122, R128). -/

/-- The responses to a command that is answered RangeError or IndexError. -/
def IsOperandError (rsp : List RspWord) : Prop := rsp = [0x10000000#32] ∨ rsp = [0x20000000#32]

theorem not_isOperandError_nil : ¬ IsOperandError [] := nofun

theorem not_isOperandError_ok : ¬ IsOperandError [responseWord .ok 0] := by unfold IsOperandError; decide

theorem not_isOperandError_transportUnavailable : ¬ IsOperandError [responseWord .transportUnavailable 0] := by
  unfold IsOperandError; decide

/-- The answer of the transport is answered to the host with OK, with TransportUnavailableError or not at all. -/
theorem State.answer_not_operandError {s : State} (hrsp : s.rsp = []) (ok : Bool) : ¬ IsOperandError (s.answer ok).rsp := by
  have hnone : ¬ IsOperandError s.rsp := hrsp ▸ not_isOperandError_nil
  have hsend {st : Status} (hst : st = .ok ∨ st = .transportUnavailable) :
      ¬ IsOperandError (s.rsp ++ [responseWord st 0]) := by
    rw [hrsp]
    obtain rfl | rfl := hst
    · exact not_isOperandError_ok
    · exact not_isOperandError_transportUnavailable
  cases hp : s.pending with
  | none => rwa [State.answer_none ok hp]
  | some p =>
    cases p with
    | opening => rwa [State.answer_opening ok hp]
    | beginning =>
      rw [State.answer_beginning ok hp]
      cases ok with
      | true => exact hnone
      | false => exact hsend (.inr rfl)
    | writing => rwa [State.answer_writing ok hp]
    | ending good => rw [State.answer_ending ok hp]; exact hsend (ite_eq_or_eq _ _ _)
    | closing => rw [State.answer_closing ok hp]; exact hsend (.inl rfl)

/-- No other input sends a response. -/
theorem State.react_rsp_nil {s : State} {e : Input} (he : ∀ ok, e ≠ .answer ok) (hrsp : s.rsp = []) :
    (s.react e).rsp = [] := by
  cases e with
  | tick => exact s.tick_rsp.trans hrsp
  | answer ok => exact absurd rfl (he ok)
  | takeByte =>
    change s.takeByte.rsp = []
    obtain ⟨t, -, -, h⟩ | h := s.takeByte_cases <;> rw [h, hrsp]
  | word w => exact hrsp
  | takeResponse => exact (congrArg State.rsp (State.takeResponse_nil hrsp)).trans hrsp
  | rstAssert => rfl
  | rstRelease orderI freqI =>
    change (s.releaseReset _ _).rsp = []
    cases hr : s.rst with
    | false => rw [State.releaseReset_idle _ _ hr, hrsp]
    | true => rw [State.releaseReset_of _ _ hr]

theorem State.react_not_operandError {s : State} (hrsp : s.rsp = []) (e : Input) : ¬ IsOperandError (s.react e).rsp := by
  by_cases he : ∃ ok, e = .answer ok
  · obtain ⟨ok, rfl⟩ := he
    exact State.answer_not_operandError hrsp ok
  · rw [State.react_rsp_nil (not_exists.1 he) hrsp]
    exact not_isOperandError_nil

/-- A command that runs has sent no response, and the input that ends it sends no such error. -/
theorem State.Within.not_operandError {s t : State} (h : s.Within t) (hrsp : t.rsp = []) (es : List Input) :
    ¬ IsOperandError (State.runInputs es t).rsp := by
  have hkeeps := State.runInputs_keeps (P := fun u => s.Within u ∧ ¬ IsOperandError u.rsp)
    fun u e es ⟨hu, _⟩ hc => ⟨hu.react hc e es,
      State.react_not_operandError (s := { u with inputs := es }) (hu.running hc).1 e⟩
  exact (hkeeps es t ⟨h, hrsp ▸ not_isOperandError_nil⟩).2

theorem State.startShow_rsp (s : State) : s.startShow.rsp = s.rsp := by
  unfold State.startShow
  split <;> rfl

/-- SHOW and CLOSE have no operands, and are not answered RangeError or IndexError. -/
theorem transportCommand_not_operandError {s t : State} {i : Instr} (hi : i = .showFrame ∨ i = .close) (hr : s.ready = true)
    (hidle : s.fsm = .idle) (h : exec i s = .next t) : ¬ IsOperandError t.rsp := by
  have hrsp := State.ready_rsp hr
  obtain rfl | rfl := hi
  · cases Host.Outcome.next.inj ((exec_idle_showFrame hr hidle).symm.trans h)
    exact (State.Within.startShow hr).not_operandError (s.startShow_rsp.trans hrsp) _
  · cases Host.Outcome.next.inj ((exec_idle_close hr hidle).symm.trans h)
    exact (State.Within.closing hr).not_operandError hrsp _

/-- R122: the checks of a SET command come before its write: a command that writes is answered OK. -/
theorem setCommand_rsp_only_or_ok {s t : State} {i : Instr}
    (hi : (∃ index color, i = .setPixel index color) ∨ (∃ index r g b, i = .setPixelRgb index r g b) ∨
      ∃ brt, i = .setBrightness brt)
    (hr : s.ready = true) (hidle : s.fsm = .idle) (h : exec i s = .next t) :
    t = { s with rsp := t.rsp } ∨ t.rsp = [responseWord .ok 0] := by
  have hok : s.rsp ++ [responseWord .ok 0] = [responseWord .ok 0] := by rw [State.ready_rsp hr, List.nil_append]
  obtain ⟨index, color, rfl⟩ | ⟨index, r, g, b, rfl⟩ | ⟨brt, rfl⟩ := hi
  · rw [exec_setPixel, State.accept_idle _ hr hidle] at h
    cases Host.Outcome.next.inj h
    cases s.cell index with
    | none => exact .inl rfl
    | some j => exact .inr hok
  · rw [exec_setPixelRgb, State.accept_idle _ hr hidle] at h
    cases Host.Outcome.next.inj h
    cases s.cell index with
    | none => cases pack r g b <;> exact .inl rfl
    | some j =>
      cases pack r g b with
      | none => exact .inl rfl
      | some color => exact .inr hok
  · rw [exec_setBrightness, State.accept_idle _ hr hidle] at h
    cases Host.Outcome.next.inj h
    cases brtOperand brt with
    | none => exact .inl rfl
    | some v => exact .inr hok

/-- Settles O19: a command turned away and a read change at most the response port; a SET command that writes is answered OK,
and SHOW and CLOSE are never answered with these errors. -/
theorem rejectedCommandLeavesTheStateUnchanged : Obligations.RejectedCommandLeavesTheStateUnchanged := by
  intro s t i hr h herr
  obtain ht | ⟨-, hidle⟩ := exec_rsp_only_or_idle h
  · exact ht
  have hset (hi : _) : t = { s with rsp := t.rsp } :=
    (setCommand_rsp_only_or_ok hi hr hidle h).resolve_right fun hok => not_isOperandError_ok (hok ▸ herr)
  cases i with
  | setPixel index color => exact hset (.inl ⟨index, color, rfl⟩)
  | setPixelRgb index r g b => exact hset (.inr (.inl ⟨index, r, g, b, rfl⟩))
  | setBrightness brt => exact hset (.inr (.inr ⟨brt, rfl⟩))
  | getPixel index => exact readCommandsChangeOnlyTheResponsePort s t _ (.inl ⟨index, .inl rfl⟩) h
  | getPixelColor index => exact readCommandsChangeOnlyTheResponsePort s t _ (.inl ⟨index, .inr rfl⟩) h
  | getPixels => exact readCommandsChangeOnlyTheResponsePort s t _ (.inr (.inl rfl)) h
  | count => exact readCommandsChangeOnlyTheResponsePort s t _ (.inr (.inr rfl)) h
  | showFrame => exact absurd herr (transportCommand_not_operandError (.inl rfl) hr hidle h)
  | close => exact absurd herr (transportCommand_not_operandError (.inr rfl) hr hidle h)

end Sys2Proof.Machine
end

section
/-! Reset and hazards (spec/70_reset_and_hazards.md section 1): the values reset leaves, that they meet the invariant and the
gap (R143, R144), the core while `rst` is asserted (R142), the reset sequence from any state (R96), and the command a reset
cuts (R142, R145). -/

namespace Sys2Proof.Machine

/-! The values after reset (R143, R144). -/

/-- Settles O40: each value stands in `State.construct`, and every cell is a copy of black. -/
theorem resetLeavesTheResetValues : Obligations.ResetLeavesTheResetValues :=
  fun _ _ _ _ => ⟨List.length_replicate, fun _ => List.eq_of_mem_replicate, rfl, rfl, rfl, List.length_replicate, rfl, rfl,
    rfl, rfl⟩

section PowerUp
variable {b : Build} {n : Nat} (order : Order) (freq : FreqClass)

/-- With T_OPEN outstanding the settings are those of the core after reset, and FSM is held as CLOSED. -/
theorem State.powerUp_inv (hb : b.wf = true) (hpos : 1 ≤ n) (hmax : n ≤ 32767) : (State.powerUp b n order freq).Inv :=
  (State.construct_inv order freq hb hpos hmax).of_settings rfl le_rfl rfl
    ((State.phaseOk_closed rfl).2 ⟨rfl, .inr ⟨rfl, rfl, rfl⟩⟩)

theorem State.powerUp_gapSafe : (State.powerUp b n order freq).GapSafe :=
  State.GapKept.of_reloaded ⟨List.pairwise_singleton _ _, by simp [State.powerUp]⟩ rfl

end PowerUp

/-- Settles O48: with T_OPEN answered and with T_OPEN outstanding; the host's reset state is one of the former. -/
theorem resetMeetsTheInvariant : Obligations.ResetMeetsTheInvariant :=
  fun _ _ order freq hb hpos hmax =>
    ⟨State.construct_inv order freq hb hpos hmax, State.powerUp_inv order freq hb hpos hmax,
      State.construct_gapSafe order freq, State.powerUp_gapSafe order freq,
      State.construct_inv _ _ (by decide) (by decide) (by decide)⟩

/-! The core in reset (R142). -/

theorem State.ready_of_rst {s : State} (hrst : s.rst = true) : s.ready = false := by
  simp [State.ready, hrst]

theorem State.ready_of_pending {s : State} {p : Pending} (hp : s.pending = some p) : s.ready = false := by
  simp [State.ready, hp]

/-- `t` is held in reset, has nothing to say to the host, and has called no transport primitive since `s`. -/
def State.SilentSince (s t : State) : Prop := t.rst = true ∧ t.rsp = [] ∧ t.trace = s.trace

/-- Nothing is in progress in a core in reset, so that of the inputs only a release can send or call anything. -/
theorem State.react_inReset {s : State} (hrst : s.rst = true) (hf : s.fsm = .closed) (hp : s.pending = none)
    (hrsp : s.rsp = []) {e : Input} (he : ∀ orderI freqI, e ≠ .rstRelease orderI freqI) : s.SilentSince (s.react e) := by
  have hsame {t : State} (ht : t = s) : s.SilentSince t := by
    rw [ht]
    exact ⟨hrst, hrsp, rfl⟩
  cases e with
  | tick =>
    change s.SilentSince s.tick
    rw [State.tick_plain fun hwait => nomatch hf.symm.trans hwait.1]
    exact ⟨hrst, hrsp, rfl⟩
  | answer ok => exact hsame (State.answer_none ok hp)
  | takeByte => exact hsame (State.takeByte_idle (by rw [hp]; nofun))
  | word w => exact ⟨hrst, hrsp, rfl⟩
  | takeResponse => exact hsame (State.takeResponse_nil hrsp)
  | rstAssert => exact ⟨rfl, rfl, rfl⟩
  | rstRelease orderI freqI => exact absurd rfl (he orderI freqI)

/-- Settles O42: a core in reset is not ready, so its step is an input, or a tick where no input is left. -/
theorem coreInResetDoesNothing : Obligations.CoreInResetDoesNothing := by
  intro s hinv hrst hnext
  obtain ⟨hf, hp, hrsp⟩ := hinv.inReset hrst
  have hsilent : s.SilentSince s.environment := by
    cases hin : s.inputs with
    | nil =>
      rw [State.environment_nil hin]
      exact State.react_inReset hrst hf hp hrsp (e := .tick) nofun
    | cons e es =>
      rw [State.environment_cons hin]
      refine State.react_inReset (s := { s with inputs := es }) hrst hf hp hrsp fun orderI freqI he => ?_
      exact hnext orderI freqI (by rw [hin, he, List.head?_cons])
  obtain ⟨hrst', hrsp', htrace⟩ := hsilent
  exact ⟨_, step_of_fetch_none (State.fetch_none_of (.inl (State.ready_of_rst hrst))), hrst', hrsp', htrace,
    s.environment_offered⟩

/-! The reset sequence (R96, R142, R144). -/

/-- Where no word is accepted the next step of a run is the next input. -/
theorem run_input {s : State} {e : Input} {es : List Input} (hn : s.ready = false ∨ s.offered = [])
    (hin : s.inputs = e :: es) (n : Nat) :
    Sys2Proof.core.run (n + 1) s = Sys2Proof.core.run n ({ s with inputs := es }.react e) :=
  run_succ ((step_of_fetch_none (State.fetch_none_of hn)).trans (congrArg _ (State.environment_cons hin))) n

/-- The reset sequence as one effect: the reset values, and T_OPEN called and answered. -/
theorem State.assertReset_releaseReset_answer (s : State) (order : Order) (freq : FreqClass) (ok : Bool) :
    (s.assertReset.releaseReset order freq).answer ok =
      { s with
        x := List.replicate s.x.length 0#24, brt := 256#9, order := order, freq := freq,
        fsm := if ok then .idle else .closed, gapCnt := s.build.gapTicks, tx := none, pending := none, rsp := [],
        rst := false, trace := s.trace ++ [⟨s.now, .call (.tOpen freq)⟩, ⟨s.now, .answer .opening ok⟩] } := by
  rw [State.answer_opening ok rfl, State.releaseReset_of order freq s.assertReset_rst]
  simp [State.log, State.assertReset]

/-- Settles O41: in reset, and until T_OPEN is answered, the core is not ready, so the three steps are the three inputs. -/
theorem resetSequenceConstructsTheCore : Obligations.ResetSequenceConstructsTheCore := by
  intro s orderI freqI ok rest hn hin order freq
  calc Sys2Proof.core.run 3 s
    _ = Sys2Proof.core.run 2 { s with inputs := .rstRelease orderI freqI :: .answer ok :: rest }.assertReset :=
        run_input hn hin 2
    _ = Sys2Proof.core.run 1 ({ s with inputs := .answer ok :: rest }.assertReset.releaseReset order freq) :=
        run_input (s := { s with inputs := .rstRelease orderI freqI :: .answer ok :: rest }.assertReset)
          (.inl (State.ready_of_rst rfl)) rfl 1
    _ = Sys2Proof.core.run 0 (({ s with inputs := rest }.assertReset.releaseReset order freq).answer ok) :=
        run_input (s := { s with inputs := .answer ok :: rest }.assertReset.releaseReset order freq)
          (.inl (State.ready_of_pending rfl)) rfl 0
    _ = _ := congrArg Host.Outcome.next (State.assertReset_releaseReset_answer { s with inputs := rest } order freq ok)

/-! A command cut by reset (R142, R145). -/

/-- A running command keeps taking inputs, so one that is still running has taken all of them. -/
theorem State.runInputs_inputs_of_inCommand (es : List Input) :
    ∀ {s : State}, s.inputs = es → (State.runInputs es s).inCommand = true → (State.runInputs es s).inputs = [] := by
  induction es with
  | nil => exact fun hin _ => hin
  | cons e es ih =>
    intro s hin
    cases hc : s.inCommand with
    | false =>
      rw [State.runInputs_done _ hc, hc]
      exact nofun
    | true =>
      rw [State.runInputs_cons e es hc]
      exact ih (State.react_inputs_eq _ e)

/-- The reset discards the command that is running, and what follows it is still to come. -/
theorem State.runInputs_rstAssert {s : State} (rest : List Input) (hc : s.inCommand = true) :
    State.runInputs (.rstAssert :: rest) { s with inputs := .rstAssert :: rest } =
      { s with inputs := rest }.assertReset :=
  (State.runInputs_cons (s := { s with inputs := .rstAssert :: rest }) _ _ hc).trans (State.runInputs_done rest rfl)

/-- A command that runs waits for the answer to its last call, which ends the trace, or it is a SHOW in GAPWAIT that has
called nothing; `trace` is the trace before the command. -/
def State.Awaits (trace : List TraceEntry) (t : State) : Prop :=
  t.inCommand = true →
    t.pending = none ∧ t.fsm = .gapwait ∧ t.trace = trace ∨
    t.pending ≠ none ∧ ∃ tick c, t.trace.getLast? = some ⟨tick, .call c⟩

/-- The call just made is the one the command waits for. -/
theorem State.Awaits.of_call {trace old : List TraceEntry} {t : State} {p : Pending} {tick : Nat} {c : Call}
    (hp : t.pending = some p) (htrace : t.trace = old ++ [⟨tick, .call c⟩]) : t.Awaits trace := by
  refine fun _ => .inr ⟨?_, tick, c, ?_⟩
  · rw [hp]
    exact Option.some_ne_none p
  · rw [htrace, List.getLast?_concat]

theorem State.Awaits.startShow {s : State} (hr : s.ready = true) : s.startShow.Awaits s.trace := by
  have hp := State.ready_pending hr
  unfold State.startShow
  split
  · exact .of_call rfl rfl
  · exact fun _ => .inl ⟨hp, rfl, rfl⟩

/-- An answer ends the command or is followed by the next call. -/
theorem State.Awaits.answer {trace : List TraceEntry} {t : State} (h : t.Awaits trace) (ok : Bool) :
    (t.answer ok).Awaits trace := by
  cases hp : t.pending with
  | none => rwa [State.answer_none ok hp]
  | some p =>
    cases p with
    | opening => rw [State.answer_opening ok hp]; cases ok <;> exact nofun
    | beginning =>
      rw [State.answer_beginning ok hp]
      cases ok with
      | true => exact .of_call rfl rfl
      | false => exact nofun
    | writing => rw [State.answer_writing ok hp]; exact .of_call rfl rfl
    | ending good => rw [State.answer_ending ok hp]; exact nofun
    | closing => rw [State.answer_closing ok hp]; exact nofun

theorem State.Awaits.react {trace : List TraceEntry} {t : State} (h : t.Awaits trace) {e : Input} (he : e.noReset = true) :
    (t.react e).Awaits trace := by
  cases e with
  | tick =>
    change t.tick.Awaits trace
    obtain ⟨-, -, ht⟩ | ⟨-, ht⟩ := t.tick_cases
    · rw [ht]; exact .of_call rfl rfl
    · rw [ht]; exact h
  | answer ok => exact h.answer ok
  | takeByte =>
    change t.takeByte.Awaits trace
    obtain ⟨_, -, -, ht⟩ | ht := t.takeByte_cases
    · rw [ht]; exact h
    · rw [ht]; exact h
  | word w => exact h
  | takeResponse =>
    change t.takeResponse.Awaits trace
    cases hrsp : t.rsp with
    | nil => rw [State.takeResponse_nil hrsp]; exact h
    | cons r rs => rw [State.takeResponse_cons hrsp]; exact h
  | rstAssert => cases he
  | rstRelease orderI freqI => cases he

theorem State.Awaits.runInputs {trace : List TraceEntry} {t : State} (h : t.Awaits trace) {es : List Input}
    (hes : ∀ e ∈ es, e.noReset = true) : (State.runInputs es t).Awaits trace :=
  State.runInputs_keeps_of_inputs (P := State.Awaits trace) (ok := Input.noReset)
    (fun u _ es hu he _ => State.Awaits.react (t := { u with inputs := es }) hu he) es t hes h

theorem State.startShow_setInputs (s : State) (es : List Input) :
    { s with inputs := es }.startShow = { s.startShow with inputs := es } := by
  unfold State.startShow
  split <;> rfl

/-- A SHOW or CLOSE that is accepted begins in a state `s0` that the inputs have no part in, and runs from there. -/
theorem exec_transportCommand {s : State} {i : Instr} (hi : i = .showFrame ∨ i = .close) (hr : s.ready = true)
    (hidle : s.fsm = .idle) :
    ∃ s0, s.Within s0 ∧ s0.Awaits s.trace ∧
      ∀ es, exec i { s with inputs := es } = .next (State.runInputs es { s0 with inputs := es }) := by
  obtain rfl | rfl := hi
  · refine ⟨s.startShow, .startShow hr, .startShow hr, fun es => ?_⟩
    rw [exec_idle_showFrame (s := { s with inputs := es }) hr hidle, State.startShow_setInputs]
  · exact ⟨_, .closing hr, .of_call rfl rfl, fun es => exec_idle_close (s := { s with inputs := es }) hr hidle⟩

theorem State.Within.setInputs {s t : State} (h : s.Within t) (es : List Input) : s.Within { t with inputs := es } :=
  ⟨h.settings, h.taken, h.trace, h.offered, h.running⟩

/-- What `rst` leaves of a command accepted in `s` that it cuts in `u`. -/
theorem State.Within.assertReset_eq {s u : State} (h : s.Within u) (rest : List Input) :
    { u with inputs := rest }.assertReset =
      { s with
        rst := true, fsm := .closed, gapCnt := u.gapCnt, tx := none, pending := none, rsp := [], inputs := rest,
        offered := u.offered, now := u.now, trace := u.trace } := by
  obtain ⟨hx, hbrt, horder, hfreq, hbuild⟩ := (State.settings_eq_iff u s).1 h.settings
  rw [← hx, ← hbrt, ← horder, ← hfreq, ← hbuild, ← h.taken]
  rfl

/-- Settles O56: the inputs up to the reset run as they do alone, and the reset meets the command only where they leave it
running. -/
theorem resetDiscardsTheCommandInProgress : Obligations.ResetDiscardsTheCommandInProgress := by
  intro s u i q rest hi hr hidle hq hu
  obtain ⟨s0, hstart, hcall, hexec⟩ := exec_transportCommand hi hr hidle
  obtain rfl := Host.Outcome.next.inj ((hexec q).symm.trans hu)
  rw [hexec (q ++ .rstAssert :: rest), State.runInputs_append q (.rstAssert :: rest) s0]
  refine ⟨fun hdone => ?done, fun hc => ?cut⟩
  case done => rw [if_neg (Bool.eq_false_iff.1 hdone)]
  case cut =>
    have hwithin := (hstart.setInputs q).runInputs q
    have hawaits := State.Awaits.runInputs (t := { s0 with inputs := q }) hcall hq hc
    have hcut := (State.runInputs_rstAssert rest hc).trans (hwithin.assertReset_eq rest)
    rw [if_pos hc]
    exact ⟨congrArg _ hcut, State.runInputs_inputs_of_inCommand q rfl hc, (hwithin.running hc).1,
      fun hnone => (hawaits.resolve_right fun h => h.1 hnone).2,
      fun hcalled => (hawaits.resolve_left fun h => hcalled h.1).2⟩

end Sys2Proof.Machine
end

section
/-! The round trip between instructions and command words (spec/30_encoding.md R55 to R62, R65): an encoding keeps every
operand, and a word that decodes keeps every bit. -/

namespace Sys2Proof

/-! From an instruction to its word and back (R55 to R62). -/

/-- The formats of R57 to R61 leave their MBZ fields zero. -/
theorem mbzClear_encode (i : Instr) : mbzClear (formatOf (opcode i)) (encode i) = true := by
  cases i with
  | setPixel index color => simp [encode, opcode, formatOf, mbzClear, encodePay, icMbzField_commandWord]
  | setPixelRgb index r g b => simp [encode, opcode, formatOf, mbzClear, encodePay, itMbzField_commandWord]
  | setBrightness brt => simp [encode, opcode, formatOf, mbzClear, encodeIdx, encodePay, bMbzField_commandWord]
  | getPixel _ | getPixelColor _ => simp [encode, opcode, formatOf, mbzClear, encodePay]
  | getPixels | count | showFrame | close => simp [encode, opcode, formatOf, mbzClear, encodeIdx, encodePay]

theorem idxField_encode (i : Instr) : idxField (encode i) = encodeIdx i := idxField_commandWord ..

/-- R62: the operands of a well-formed instruction are read back from its word, each signed one because it fits its field. -/
theorem assemble_encode {i : Instr} (h : i.wf = true) : assemble (opcode i) (encode i) = i := by
  cases i with
  | setPixel index color =>
    rw [opcode, assemble, idxField_encode, encodeIdx, toInt_ofInt_of_fits (by decide) h, encode, encodePay,
      colorField_commandWord]
  | setPixelRgb index r g b =>
    simp only [Instr.wf, Bool.and_eq_true] at h
    obtain ⟨⟨⟨hindex, hr⟩, hg⟩, hb⟩ := h
    rw [opcode, assemble, idxField_encode, encodeIdx, toInt_ofInt_of_fits (by decide) hindex, encode, encodePay,
      redField_commandWord, greenField_commandWord, blueField_commandWord, toInt_ofInt_of_fits (by decide) hr,
      toInt_ofInt_of_fits (by decide) hg, toInt_ofInt_of_fits (by decide) hb]
  | getPixel index | getPixelColor index =>
    rw [opcode, assemble, idxField_encode, encodeIdx, toInt_ofInt_of_fits (by decide) h]
  | setBrightness brt =>
    rw [opcode, assemble, encode, encodePay, brtField_commandWord, toInt_ofInt_of_fits (by decide) h]
  | getPixels | count | showFrame | close => rfl

/-- Settles O1: the word has the code of its operation, MBZ fields that are zero, and fields that hold the operands. -/
theorem decodeOfEncodeIsTheInstruction : Obligations.DecodeOfEncodeIsTheInstruction := fun i hi =>
  (decode_commandWord (opcode i) (mbzClear_encode i)).trans (congrArg Except.ok (assemble_encode hi))

/-! From a legal word to its instruction and back (R65). -/

/-- R62: what a field holds fits the field. -/
theorem assemble_wf (o : Opcode) (w : CmdWord) : (assemble o w).wf = true := by
  cases o <;> simp [assemble, Instr.wf, fits_toInt]

theorem opcode_assemble (o : Opcode) (w : CmdWord) : opcode (assemble o w) = o := by
  cases o <;> rfl

section Split
variable (w : CmdWord)

theorem payField_eq_ic : payField w = icMbzField w ++ colorField w := by
  apply BitVec.eq_of_toNat_eq
  rw [toNat_append_eq, payField_toNat, icMbzField_toNat, colorField_toNat]
  omega

theorem payField_eq_it : payField w = itMbzField w ++ redField w ++ greenField w ++ blueField w := by
  apply BitVec.eq_of_toNat_eq
  rw [toNat_append_eq, toNat_append_eq, toNat_append_eq, payField_toNat, itMbzField_toNat, redField_toNat,
    greenField_toNat, blueField_toNat]
  omega

theorem payField_eq_b : payField w = bMbzField w ++ brtField w := by
  apply BitVec.eq_of_toNat_eq
  rw [toNat_append_eq, payField_toNat, bMbzField_toNat, brtField_toNat]
  omega

end Split

section Legal
variable {o : Opcode} {w : CmdWord} (h : mbzClear (formatOf o) w = true)
include h

/-- The index field is an operand, or marked MBZ and hence zero. -/
theorem encodeIdx_assemble : encodeIdx (assemble o w) = idxField w := by
  cases o with
  | setPixel | setPixelRgb | getPixel | getPixelColor => exact BitVec.ofInt_toInt
  | getPixels | count | showFrame | close | setBrightness =>
    simp only [formatOf, mbzClear, Bool.and_eq_true, beq_iff_eq] at h
    obtain ⟨hidx, -⟩ := h
    exact hidx.symm

/-- The payload is its operands, below an MBZ field that is zero. -/
theorem encodePay_assemble : encodePay (assemble o w) = payField w := by
  cases o with
  | setPixel =>
    have hmbz : icMbzField w = 0 := by simpa [formatOf, mbzClear] using h
    rw [payField_eq_ic, hmbz, assemble, encodePay]
  | setPixelRgb =>
    have hmbz : itMbzField w = 0 := by simpa [formatOf, mbzClear] using h
    rw [payField_eq_it, hmbz, assemble, encodePay, BitVec.ofInt_toInt, BitVec.ofInt_toInt, BitVec.ofInt_toInt]
  | setBrightness =>
    obtain ⟨-, hmbz⟩ : idxField w = 0 ∧ bMbzField w = 0 := by simpa [formatOf, mbzClear] using h
    rw [payField_eq_b, hmbz, assemble, encodePay, BitVec.ofInt_toInt]
  | getPixel | getPixelColor =>
    have hpay : payField w = 0 := by simpa [formatOf, mbzClear] using h
    exact hpay.symm
  | getPixels | count | showFrame | close =>
    obtain ⟨-, hpay⟩ : idxField w = 0 ∧ payField w = 0 := by simpa [formatOf, mbzClear] using h
    exact hpay.symm

end Legal

/-- Settles O2: the three fields of a legal word are those its instruction is written with, and they make up the word. -/
theorem legalWordIsItsInstructionsEncoding : Obligations.LegalWordIsItsInstructionsEncoding := by
  intro w i hw
  obtain ⟨o, hop, hmbz, rfl⟩ := (decode_ok_iff w i).1 hw
  refine ⟨assemble_wf o w, ?_⟩
  calc encode (assemble o w) = commandWord (opField w) (idxField w) (payField w) := by
        rw [encode, opcode_assemble, opcodeWord_of_opcodeOf hop, encodeIdx_assemble hmbz, encodePay_assemble hmbz]
    _ = w := commandWord_fields w

/-! Words of the spec's tables (95_test_vectors.md sections 2.6 and 2.7). -/

/-- Settles O4: the decoder is run on each word. -/
theorem specWordsDecodeAsWritten : Obligations.SpecWordsDecodeAsWritten :=
  ⟨rfl, rfl, rfl, rfl, rfl, rfl, rfl, rfl, rfl, rfl, rfl, rfl⟩

end Sys2Proof
end
